-- ==== Sys2Proof/Word.lean ====
section
/-! DEFINITION. The word types of the HT82M99E/HT82M99A (00_scope.md R7, R11): bytes of data memory, data memory
addresses, program memory addresses and 14-bit instruction words. -/

namespace Sys2Proof

/-- A byte of data memory or a register of 8 bits (00_scope.md R7). -/
abbrev Byte := BitVec 8

/-- A data memory address, the operand `m` (00_scope.md R7, 30_encoding.md R142). -/
abbrev DataAddr := BitVec 7

/-- A program memory word address, the width of the program counter (10_state.md R22). -/
abbrev ProgAddr := BitVec 11

/-- A word of program memory (30_encoding.md R140). -/
abbrev CodeWord := BitVec 14

/-- The byte with the given bits, bit 7 first (00_scope.md R11: bit 0 is the least significant). -/
def byteOfBits (b7 b6 b5 b4 b3 b2 b1 b0 : Bool) : Byte :=
  BitVec.ofBool b7 ++ BitVec.ofBool b6 ++ BitVec.ofBool b5 ++ BitVec.ofBool b4 ++
    BitVec.ofBool b3 ++ BitVec.ofBool b2 ++ BitVec.ofBool b1 ++ BitVec.ofBool b0

end Sys2Proof
end

