-- ==== Sys2Proof/Syntax.lean ====
section
/-! DEFINITION. The 63 instructions (30_encoding.md R146), one constructor per row of spec/opcode_table.json. -/

namespace Sys2Proof

/-- A decoded instruction. `m` is a data memory address, `x` an immediate byte, `i` a bit number and `addr` a program
memory address (00_scope.md R13, 30_encoding.md R142, R143). -/
inductive Instr where
  /-- NOP (R310) -/
  | nop
  /-- CLR WDT (R313) -/
  | clrWdt
  /-- CLR WDT1 (R314) -/
  | clrWdt1
  /-- HALT (R318) -/
  | halt
  /-- RET (R282) -/
  | ret
  /-- RETI (R284) -/
  | reti
  /-- CLR WDT2 (R315) -/
  | clrWdt2
  /-- MOV [m],A (R261) -/
  | movMA (m : DataAddr)
  /-- CPLA [m] (R231) -/
  | cplaM (m : DataAddr)
  /-- CPL [m] (R230) -/
  | cplM (m : DataAddr)
  /-- SUB A,[m] (R207) -/
  | subAM (m : DataAddr)
  /-- SUBM A,[m] (R208) -/
  | submAM (m : DataAddr)
  /-- ADD A,[m] (R201) -/
  | addAM (m : DataAddr)
  /-- ADDM A,[m] (R202) -/
  | addmAM (m : DataAddr)
  /-- XOR A,[m] (R223) -/
  | xorAM (m : DataAddr)
  /-- XORM A,[m] (R226) -/
  | xormAM (m : DataAddr)
  /-- OR A,[m] (R222) -/
  | orAM (m : DataAddr)
  /-- ORM A,[m] (R225) -/
  | ormAM (m : DataAddr)
  /-- AND A,[m] (R221) -/
  | andAM (m : DataAddr)
  /-- ANDM A,[m] (R224) -/
  | andmAM (m : DataAddr)
  /-- MOV A,[m] (R260) -/
  | movAM (m : DataAddr)
  /-- SZA [m] (R274) -/
  | szaM (m : DataAddr)
  /-- SZ [m] (R273) -/
  | szM (m : DataAddr)
  /-- SWAPA [m] (R317) -/
  | swapaM (m : DataAddr)
  /-- SWAP [m] (R316) -/
  | swapM (m : DataAddr)
  /-- SBC A,[m] (R209) -/
  | sbcAM (m : DataAddr)
  /-- SBCM A,[m] (R210) -/
  | sbcmAM (m : DataAddr)
  /-- ADC A,[m] (R204) -/
  | adcAM (m : DataAddr)
  /-- ADCM A,[m] (R205) -/
  | adcmAM (m : DataAddr)
  /-- INCA [m] (R240) -/
  | incaM (m : DataAddr)
  /-- INC [m] (R241) -/
  | incM (m : DataAddr)
  /-- DECA [m] (R242) -/
  | decaM (m : DataAddr)
  /-- DEC [m] (R243) -/
  | decM (m : DataAddr)
  /-- SIZA [m] (R279) -/
  | sizaM (m : DataAddr)
  /-- SIZ [m] (R277) -/
  | sizM (m : DataAddr)
  /-- SDZA [m] (R280) -/
  | sdzaM (m : DataAddr)
  /-- SDZ [m] (R278) -/
  | sdzM (m : DataAddr)
  /-- RLA [m] (R249) -/
  | rlaM (m : DataAddr)
  /-- RL [m] (R250) -/
  | rlM (m : DataAddr)
  /-- RRA [m] (R245) -/
  | rraM (m : DataAddr)
  /-- RR [m] (R246) -/
  | rrM (m : DataAddr)
  /-- RLCA [m] (R251) -/
  | rlcaM (m : DataAddr)
  /-- RLC [m] (R252) -/
  | rlcM (m : DataAddr)
  /-- RRCA [m] (R247) -/
  | rrcaM (m : DataAddr)
  /-- RRC [m] (R248) -/
  | rrcM (m : DataAddr)
  /-- TABRDC [m] (R303) -/
  | tabrdcM (m : DataAddr)
  /-- TABRDL [m] (R304) -/
  | tabrdlM (m : DataAddr)
  /-- DAA [m] (R211) -/
  | daaM (m : DataAddr)
  /-- CLR [m] (R311) -/
  | clrM (m : DataAddr)
  /-- SET [m] (R312) -/
  | setM (m : DataAddr)
  /-- RET A,x (R283) -/
  | retAx (x : Byte)
  /-- SUB A,x (R206) -/
  | subAx (x : Byte)
  /-- ADD A,x (R203) -/
  | addAx (x : Byte)
  /-- XOR A,x (R229) -/
  | xorAx (x : Byte)
  /-- OR A,x (R228) -/
  | orAx (x : Byte)
  /-- AND A,x (R227) -/
  | andAx (x : Byte)
  /-- MOV A,x (R262) -/
  | movAx (x : Byte)
  /-- CALL addr (R281) -/
  | call (addr : ProgAddr)
  /-- JMP addr (R272) -/
  | jmp (addr : ProgAddr)
  /-- SET [m].i (R264) -/
  | setBit (m : DataAddr) (i : BitVec 3)
  /-- CLR [m].i (R263) -/
  | clrBit (m : DataAddr) (i : BitVec 3)
  /-- SNZ [m].i (R276) -/
  | snzBit (m : DataAddr) (i : BitVec 3)
  /-- SZ [m].i (R275) -/
  | szBit (m : DataAddr) (i : BitVec 3)
deriving DecidableEq, Repr

end Sys2Proof
end

