-- ==== Sys2Proof/Config.lean ====
section
/-! DEFINITION. What an implementation fixes: the ten OTP options of 00_scope.md R9 and R10, the open parameters of
00_scope.md R17, and the free values that the spec calls `draw` (00_scope.md R12). -/

namespace Sys2Proof

/-- OTP option 1, the clock source of the watchdog (00_scope.md R10; "T1" is read as the instruction clock, D10). -/
inductive WdtSource where
  | rc
  | sys4
deriving DecidableEq, Repr

/-- OTP option 8, "CLR WDT", 1 or 2 instructions (00_scope.md R9). -/
inductive ClrWdtTimes where
  | one
  | two
deriving DecidableEq, Repr

/-- OTP option 10, the output mode of a port A line (00_scope.md R9). -/
inductive OutMode where
  | cmos
  | nmos
  | pmos
deriving DecidableEq, Repr

/-- Parameter `F_SYS`, the crystal (00_scope.md R17, D30). -/
inductive Crystal where
  | mhz6
  | mhz12
deriving DecidableEq, Repr

/-- Parameter `RAM_AFTER_RESET` (00_scope.md R17): what the general purpose RAM holds after a reset other than POR
and WDTh. -/
inductive RamAfterReset where
  | survives
  | unknown
deriving DecidableEq, Repr

/-- `CONFIG` (00_scope.md R10) and the named parameters of 00_scope.md R17, with their defaults. A constant of the
machine: no step changes it. `CLRWDT_TIMES` has no printed default: DESIGN CHOICE `one` (log 10). -/
structure Config where
  /-- Option 2, `WDT_ENABLE`. -/
  wdtEnable : Bool := false
  /-- Option 1, `WDT_SRC`. -/
  wdtSrc : WdtSource := .sys4
  /-- Option 8, `CLRWDT_TIMES`. -/
  clrWdtTimes : ClrWdtTimes := .one
  /-- Option 9, `TBHP_ENABLE`. -/
  tbhpEnable : Bool := false
  /-- Option 3, `WAKE` of PA7 to PA0. -/
  wakeA : Byte := 0x00#8
  /-- Option 3, `WAKE` of PB4. -/
  wakeB4 : Bool := false
  /-- Option 3, `WAKE` of PB7. -/
  wakeB7 : Bool := false
  /-- Option 4, `PA_PULLHIGH`: electrical only, seen through `Pads` (62_ports_usb_ps2.md R504). -/
  paPullHigh : Byte := 0xFF#8
  /-- Option 5, `PB_PULLHIGH` by nibble: electrical only. -/
  pbPullHigh : BitVec 2 := 0b11#2
  /-- Option 7, `PULLLOW` of PA3 to PA0: electrical only. -/
  paPullLow : BitVec 4 := 0b0000#4
  /-- Option 7, `PULLLOW` of PB3 and PB2: electrical only. -/
  pbPullLow : BitVec 2 := 0b00#2
  /-- Option 10, `PA_OUTMODE` by bit. -/
  paOutMode : Vector OutMode 8 := Vector.replicate 8 .cmos
  /-- Option 6, `LVR_ENABLE`. -/
  lvrEnable : Bool := true
  /-- `F_SYS`. -/
  fSys : Crystal := .mhz12
  /-- `IRQ_LATENCY`, in instruction boundaries. -/
  irqLatency : Nat := 0
  /-- `IRQ_ENTRY_CYCLES`, timing only. -/
  irqEntryCycles : Nat := 2
  /-- `RAM_AFTER_RESET`. -/
  ramAfterReset : RamAfterReset := .unknown
  /-- `BP_RESET`: `none` is the default "unknown". -/
  bpReset : Option Bool := none
  /-- `TBHP_RESET`: `none` is the default "unknown". -/
  tbhpReset : Option (BitVec 3) := none
  /-- `ENCODING` (30_encoding.md R147, D1), as what it changes of the default map of R148 to R153: a listed word means
  the instruction beside it, or is undefined where none stands there. Every map of words is such a list (log 1). -/
  encoding : List (CodeWord × Option Instr) := []
deriving DecidableEq, Repr

/-- The free values (`draw` of 00_scope.md R12, K1, K2, K10, K11, K12, K16): the n-th byte drawn. It has no body, so
nothing can be proved of it: a statement holds for every value (log 8). -/
opaque Config.draw : Nat → Byte

end Sys2Proof
end

