-- ==== Sys2Proof/WellFormed.lean ====
section
/-! DEFINITION. Which instructions have a word of their own. The operand types hold every operand the encoding admits
(30_encoding.md R142), so the one thing left to check is the word 0001H, which the two mnemonics CLR WDT and CLR WDT1
share: `CONFIG.CLRWDT_TIMES` chooses which of them it is (30_encoding.md R149). -/

namespace Sys2Proof

/-- `i` is an instruction that some word decodes to when `CONFIG.CLRWDT_TIMES` is `times`. -/
def wellFormed (times : ClrWdtTimes) (i : Instr) : Bool :=
  match times, i with
  | .two, .clrWdt => false
  | .one, .clrWdt1 => false
  | _, _ => true

end Sys2Proof
end

