-- ==== Sys2Proof/Decode.lean ====
section
/-! DEFINITION. Decoding and encoding by the default map of parameter `ENCODING` (30_encoding.md R148 to R155, log 1),
and decoding by the map of a configuration (R147). The default map is from general knowledge, as the spec marks it; the
word 0001H means CLR WDT or CLR WDT1 as `CONFIG.CLRWDT_TIMES` says (30_encoding.md R149, log 2). -/

namespace Sys2Proof

/-- Why bytes of program memory are no instruction. -/
inductive DecodeError where
  /-- The word is none of the 63 instructions (30_encoding.md R154). -/
  | undefinedWord (w : CodeWord)
  /-- The second byte has bit 6 or 7 set: no 14-bit word (20_memory.md R112). -/
  | notFourteenBits
  /-- Fewer than two bytes. -/
  | truncated
deriving DecidableEq, Repr

/-- Format F0 (30_encoding.md R149): the words below 0080H. -/
def decodeF0 (times : ClrWdtTimes) (w : CodeWord) : Except DecodeError Instr :=
  match w.toNat with
  | 0 => .ok .nop
  | 1 =>
    match times with
    | .one => .ok .clrWdt
    | .two => .ok .clrWdt1
  | 2 => .ok .halt
  | 3 => .ok .ret
  | 4 => .ok .reti
  | 5 => .ok .clrWdt2
  | _ => .error (.undefinedWord w)

/-- Format FM (30_encoding.md R150): `base` is the word's bits 13 to 7, `m` its bits 6 to 0. -/
def decodeFM (w : CodeWord) (base : BitVec 7) (m : DataAddr) : Except DecodeError Instr :=
  match base.toNat with
  | 0b0000001 => .ok (.movMA m)
  | 0b0000010 => .ok (.cplaM m)
  | 0b0000011 => .ok (.cplM m)
  | 0b0000100 => .ok (.subAM m)
  | 0b0000101 => .ok (.submAM m)
  | 0b0000110 => .ok (.addAM m)
  | 0b0000111 => .ok (.addmAM m)
  | 0b0001000 => .ok (.xorAM m)
  | 0b0001001 => .ok (.xormAM m)
  | 0b0001010 => .ok (.orAM m)
  | 0b0001011 => .ok (.ormAM m)
  | 0b0001100 => .ok (.andAM m)
  | 0b0001101 => .ok (.andmAM m)
  | 0b0001110 => .ok (.movAM m)
  | 0b0100000 => .ok (.szaM m)
  | 0b0100001 => .ok (.szM m)
  | 0b0100010 => .ok (.swapaM m)
  | 0b0100011 => .ok (.swapM m)
  | 0b0100100 => .ok (.sbcAM m)
  | 0b0100101 => .ok (.sbcmAM m)
  | 0b0100110 => .ok (.adcAM m)
  | 0b0100111 => .ok (.adcmAM m)
  | 0b0101000 => .ok (.incaM m)
  | 0b0101001 => .ok (.incM m)
  | 0b0101010 => .ok (.decaM m)
  | 0b0101011 => .ok (.decM m)
  | 0b0101100 => .ok (.sizaM m)
  | 0b0101101 => .ok (.sizM m)
  | 0b0101110 => .ok (.sdzaM m)
  | 0b0101111 => .ok (.sdzM m)
  | 0b0110000 => .ok (.rlaM m)
  | 0b0110001 => .ok (.rlM m)
  | 0b0110010 => .ok (.rraM m)
  | 0b0110011 => .ok (.rrM m)
  | 0b0110100 => .ok (.rlcaM m)
  | 0b0110101 => .ok (.rlcM m)
  | 0b0110110 => .ok (.rrcaM m)
  | 0b0110111 => .ok (.rrcM m)
  | 0b0111010 => .ok (.tabrdcM m)
  | 0b0111011 => .ok (.tabrdlM m)
  | 0b0111101 => .ok (.daaM m)
  | 0b0111110 => .ok (.clrM m)
  | 0b0111111 => .ok (.setM m)
  | _ => .error (.undefinedWord w)

/-- Format FI (30_encoding.md R151): `op` is the word's bits 10 to 8, `x` its bits 7 to 0. -/
def decodeFI (w : CodeWord) (op : BitVec 3) (x : Byte) : Except DecodeError Instr :=
  match op.toNat with
  | 0b001 => .ok (.retAx x)
  | 0b010 => .ok (.subAx x)
  | 0b011 => .ok (.addAx x)
  | 0b100 => .ok (.xorAx x)
  | 0b101 => .ok (.orAx x)
  | 0b110 => .ok (.andAx x)
  | 0b111 => .ok (.movAx x)
  | _ => .error (.undefinedWord w)

/-- Format FA (30_encoding.md R152): bit 11 of the word chooses JMP, bits 10 to 0 are `addr`. -/
def decodeFA (jump : Bool) (addr : ProgAddr) : Instr :=
  if jump then .jmp addr else .call addr

/-- Format FB (30_encoding.md R153): `ff` is the word's bits 11 and 10. -/
def decodeFB (ff : BitVec 2) (i : BitVec 3) (m : DataAddr) : Instr :=
  match ff.toNat with
  | 0b00 => .setBit m i
  | 0b01 => .clrBit m i
  | 0b10 => .snzBit m i
  | _ => .szBit m i

/-- The decoder of 30_encoding.md R155: total on every 14-bit word, undefined words rejected by name. -/
def decode (times : ClrWdtTimes) (w : CodeWord) : Except DecodeError Instr :=
  if w.extractLsb' 12 2 = 0b11#2 then
    .ok (decodeFB (w.extractLsb' 10 2) (w.extractLsb' 7 3) (w.extractLsb' 0 7))
  else if w.extractLsb' 12 2 = 0b10#2 then .ok (decodeFA (w.getLsbD 11) (w.extractLsb' 0 11))
  else if w.extractLsb' 11 3 = 0b001#3 then decodeFI w (w.extractLsb' 8 3) (w.extractLsb' 0 8)
  else if w.toNat < 0x80 then decodeF0 times w
  else decodeFM w (w.extractLsb' 7 7) (w.extractLsb' 0 7)

/-- What a map listed as changes of the default says of a word, if it lists it; the first entry counts. -/
def lookupWord : List (CodeWord × Option Instr) → CodeWord → Option (Option Instr)
  | [], _ => none
  | (v, i) :: rest, w => if w = v then some i else lookupWord rest w

/-- The parameter `ENCODING` of a configuration as the total map it is: a word to an instruction or to "undefined"
(30_encoding.md R147, R154). -/
def Config.decode (c : Config) (w : CodeWord) : Except DecodeError Instr :=
  match lookupWord c.encoding w with
  | some (some i) => .ok i
  | some none => .error (.undefinedWord w)
  | none => Sys2Proof.decode c.clrWdtTimes w

/-- The decoder over program memory bytes, two a word, low byte first (20_memory.md R112): the instruction and the
bytes after it. -/
def decodeBytes (times : ClrWdtTimes) : List Byte → Except DecodeError (Instr × List Byte)
  | lo :: hi :: rest =>
    if hi.extractLsb' 6 2 = 0b00#2 then
      match decode times ((hi ++ lo).extractLsb' 0 14) with
      | .ok i => .ok (i, rest)
      | .error e => .error e
    else .error .notFourteenBits
  | _ => .error .truncated

/-- The word of an instruction: the "encoding" of its row in spec/opcode_table.json (30_encoding.md R148 to R153). -/
def encode : Instr → CodeWord
  | .nop => 0b00000000000000#14
  | .clrWdt => 0b00000000000001#14
  | .clrWdt1 => 0b00000000000001#14
  | .halt => 0b00000000000010#14
  | .ret => 0b00000000000011#14
  | .reti => 0b00000000000100#14
  | .clrWdt2 => 0b00000000000101#14
  | .movMA m => 0b0000001#7 ++ m
  | .cplaM m => 0b0000010#7 ++ m
  | .cplM m => 0b0000011#7 ++ m
  | .subAM m => 0b0000100#7 ++ m
  | .submAM m => 0b0000101#7 ++ m
  | .addAM m => 0b0000110#7 ++ m
  | .addmAM m => 0b0000111#7 ++ m
  | .xorAM m => 0b0001000#7 ++ m
  | .xormAM m => 0b0001001#7 ++ m
  | .orAM m => 0b0001010#7 ++ m
  | .ormAM m => 0b0001011#7 ++ m
  | .andAM m => 0b0001100#7 ++ m
  | .andmAM m => 0b0001101#7 ++ m
  | .movAM m => 0b0001110#7 ++ m
  | .szaM m => 0b0100000#7 ++ m
  | .szM m => 0b0100001#7 ++ m
  | .swapaM m => 0b0100010#7 ++ m
  | .swapM m => 0b0100011#7 ++ m
  | .sbcAM m => 0b0100100#7 ++ m
  | .sbcmAM m => 0b0100101#7 ++ m
  | .adcAM m => 0b0100110#7 ++ m
  | .adcmAM m => 0b0100111#7 ++ m
  | .incaM m => 0b0101000#7 ++ m
  | .incM m => 0b0101001#7 ++ m
  | .decaM m => 0b0101010#7 ++ m
  | .decM m => 0b0101011#7 ++ m
  | .sizaM m => 0b0101100#7 ++ m
  | .sizM m => 0b0101101#7 ++ m
  | .sdzaM m => 0b0101110#7 ++ m
  | .sdzM m => 0b0101111#7 ++ m
  | .rlaM m => 0b0110000#7 ++ m
  | .rlM m => 0b0110001#7 ++ m
  | .rraM m => 0b0110010#7 ++ m
  | .rrM m => 0b0110011#7 ++ m
  | .rlcaM m => 0b0110100#7 ++ m
  | .rlcM m => 0b0110101#7 ++ m
  | .rrcaM m => 0b0110110#7 ++ m
  | .rrcM m => 0b0110111#7 ++ m
  | .tabrdcM m => 0b0111010#7 ++ m
  | .tabrdlM m => 0b0111011#7 ++ m
  | .daaM m => 0b0111101#7 ++ m
  | .clrM m => 0b0111110#7 ++ m
  | .setM m => 0b0111111#7 ++ m
  | .retAx x => 0b001001#6 ++ x
  | .subAx x => 0b001010#6 ++ x
  | .addAx x => 0b001011#6 ++ x
  | .xorAx x => 0b001100#6 ++ x
  | .orAx x => 0b001101#6 ++ x
  | .andAx x => 0b001110#6 ++ x
  | .movAx x => 0b001111#6 ++ x
  | .call addr => 0b100#3 ++ addr
  | .jmp addr => 0b101#3 ++ addr
  | .setBit m i => 0b1100#4 ++ i ++ m
  | .clrBit m i => 0b1101#4 ++ i ++ m
  | .snzBit m i => 0b1110#4 ++ i ++ m
  | .szBit m i => 0b1111#4 ++ i ++ m

/-- The two program memory bytes of a word given as a number: low byte first (20_memory.md R112). -/
def wordBytes (w : Nat) : List Byte := [BitVec.ofNat 8 w, BitVec.ofNat 8 (w / 256)]

/-- The instruction the decoder reads from an opcode table word under the default options. Every instruction is one
word of 14 bits (30_encoding.md R140), so `nbits` adds nothing. -/
def decodeTableWord (_nbits w : Nat) : Option Instr :=
  match decodeBytes .one (wordBytes w) with
  | .ok (i, _) => some i
  | .error _ => none

end Sys2Proof
end

