-- ==== Sys2Proof/Machine/State.lean ====
section
/-! DEFINITION. The state of the machine as plain data: everything 10_state.md R20 gives it, the hidden state of its
agents, the configuration, and the model's own fields that carry a parameter of 00_scope.md R17, the free values and
the environment's moves (INVENTORY.md lists each). -/

namespace Sys2Proof.Machine

/-- Memory held as (address, byte) pairs; `Memory.wf` in Machine/Ops.lean is its canonical form. Data memory is keyed
by its address, program memory by twice the word address and that plus one, low byte first (20_memory.md R112). -/
abbrev Memory := List Host.Cell

/-- The six flags of STATUS (10_state.md R39); `timeout` is the flag TO. -/
structure Flags where
  c : Bool
  ac : Bool
  z : Bool
  ov : Bool
  pdf : Bool
  timeout : Bool
deriving DecidableEq, Repr

/-- The stored bits of INTC (10_state.md R40). -/
structure Intc where
  emi : Bool
  eui : Bool
  eti : Bool
  usbf : Bool
  tf : Bool
deriving DecidableEq, Repr

/-- The stored bits of TMRC (10_state.md R42). -/
structure Tmrc where
  te : Bool
  ton : Bool
  tm0 : Bool
  tm1 : Bool
deriving DecidableEq, Repr

/-- The timer/event counter: TMRC, `TCNT`, `TPRE`, `TBUF` and `pw_run` (61_timers_wdt.md R451). -/
structure Timer where
  ctl : Tmrc
  cnt : BitVec 16
  pre : BitVec 16
  buf : Byte
  pwRun : Bool
deriving DecidableEq, Repr

/-- The memory `pre` of which half of the CLR WDT1/CLR WDT2 pair has executed (61_timers_wdt.md R474). -/
inductive Preclear where
  | none
  | got1
  | got2
deriving DecidableEq, Repr

/-- The watchdog: WDTS bits 2 to 0, `WDTCNT` and `pre` (10_state.md R38, 61_timers_wdt.md R470). -/
structure Wdt where
  ws : BitVec 3
  cnt : Nat
  pre : Preclear
deriving DecidableEq, Repr

/-- The port registers (62_ports_usb_ps2.md R500): output latches and control registers, of which PB and PBC have only
bits 7, 4, 3 and 2; and the pad levels last sampled at an instruction boundary, for the edges of 61_timers_wdt.md R451
and 60_exceptions.md R433. -/
structure Ports where
  pa : Byte
  pac : Byte
  pb : Byte
  pbc : Byte
  seenA : Byte
  seenB : Byte
deriving DecidableEq, Repr

/-- The stored bits of USC (10_state.md R45). -/
structure Usc where
  suspend : Bool
  rmotWk : Bool
  urstFlag : Bool
  resumeO : Bool
  ps2Dao : Bool
  ps2Cko : Bool
deriving DecidableEq, Repr

/-- The stored bits of MISC (10_state.md R55). -/
structure Misc where
  request : Bool
  tx : Bool
  clear : Bool
  sel0 : Bool
  sel1 : Bool
  setCmd : Bool
  len0 : Bool
deriving DecidableEq, Repr

/-- A USB endpoint: 0 control, 1 interrupt (62_ports_usb_ps2.md R540). -/
inductive Endpoint where
  | ep0
  | ep1
deriving DecidableEq, Repr

/-- The direction mark of a FIFO (62_ports_usb_ps2.md R540): filled by the host for the MCU to read, being filled by
the MCU, or handed to the SIE as the next IN packet (R541). -/
inductive FifoMark where
  | fromHost
  | filling
  | handed
deriving DecidableEq, Repr

/-- An endpoint's FIFO: its bytes, first to be read first, its direction mark, and whether the host is using the pipe
(62_ports_usb_ps2.md R540, R542). -/
structure Fifo where
  bytes : List Byte
  mark : FifoMark
  busy : Bool
deriving DecidableEq, Repr

/-- The USB/PS2 registers and the hidden state of the USB block (10_state.md R45 to R56, 62_ports_usb_ps2.md R540). -/
structure Usb where
  usc : Usc
  usr : Byte
  scc : Byte
  pipeCtrl : Byte
  awr : Byte
  stall : Byte
  pipe : Byte
  sies : Byte
  misc : Misc
  fifo0 : Fifo
  fifo1 : Fifo
  devAddr : BitVec 7
deriving DecidableEq, Repr

/-- The HALT state (60_exceptions.md R430), with the request flags as they stood when HALT executed (R435) and whether a
selected wake-up edge came at this boundary (R433). -/
structure Halt where
  halted : Bool
  usbf : Bool
  tf : Bool
  edge : Bool
deriving DecidableEq, Repr

/-- The levels the environment presents on the pads: ports A and B (bits 7, 4, 3, 2), DATA (USBD-) and CLK (USBD+)
(62_ports_usb_ps2.md R506). -/
structure Pads where
  pa : Byte
  pb : Byte
  data : Bool
  clk : Bool
deriving DecidableEq, Repr

/-- What a USB access brought (62_ports_usb_ps2.md R540): a SETUP or OUT packet with its bytes, an OUT packet of zero
length, an IN packet taken by the host, or a NAKed token that the SIE reports (R549). -/
inductive Packet where
  | setup (bytes : List Byte)
  | out (bytes : List Byte)
  | outZero
  | inTaken
  | naked
deriving DecidableEq, Repr

/-- One move of the environment (70_reset_and_hazards.md R646). -/
inductive EnvMove where
  /-- Power applied: reset(POR). -/
  | powerOn
  /-- RES driven low, then high. -/
  | resLow
  /-- A valid low voltage (61_timers_wdt.md R485). -/
  | lowVoltage
  /-- One tick of the WDT RC oscillator. -/
  | wdtTick
  /-- `usb_reset`. -/
  | usbReset
  /-- `usb_suspend`. -/
  | usbSuspend
  /-- `usb_resume_start`. -/
  | usbResumeStart
  /-- `usb_resume_end`. -/
  | usbResumeEnd
  /-- `usb_access(k)` with the packet's kind. -/
  | usbAccess (k : Endpoint) (p : Packet)
  /-- The host begins or ends using endpoint `k`'s pipe (62_ports_usb_ps2.md R542): a move of the model's own, which
  R540 does not list, DESIGN CHOICE (log 21). -/
  | usbBusy (k : Endpoint) (b : Bool)
  /-- Error mark: CRC error. -/
  | crcError
  /-- Error mark: FIFO0 error. -/
  | fifo0Error
  /-- The read-only SIES bits that follow the bus: IN, NAK, EOT (10_state.md R54, K18). -/
  | siesBus (inToken nak eot : Bool)
deriving DecidableEq, Repr

/-- What the environment does at one instruction boundary: the pad levels, then its moves in order. -/
structure Input where
  pads : Pads
  moves : List EnvMove
deriving DecidableEq, Repr

/-- The environment as data: the levels now and the boundaries to come; when the list is empty the levels stay and no
move comes (log 7). -/
structure Env where
  pads : Pads
  inputs : List Input
deriving DecidableEq, Repr

/-- Boundaries at which each request flag has been seen set (parameter `IRQ_LATENCY` of 00_scope.md R17, log 29). -/
structure IrqAge where
  usb : Nat
  timer : Nat
deriving DecidableEq, Repr

/-- A wait of 2 µs (62_ports_usb_ps2.md R546): instruction cycles left, and whether it began in this instruction. -/
structure Countdown where
  left : Nat
  fresh : Bool
deriving DecidableEq, Repr

/-- The three waits of 62_ports_usb_ps2.md R546: from the write that sets Request to the first check of Ready, between
two reading actions, and between two writing actions (log 22). -/
structure Gap where
  request : Countdown
  read : Countdown
  write : Countdown
deriving DecidableEq, Repr

/-- No wait is running. -/
def Gap.none : Gap :=
  { request := { left := 0, fresh := false }, read := { left := 0, fresh := false }
    write := { left := 0, fresh := false } }

/-- The machine (10_state.md R20). -/
structure State where
  /-- ACC (R21). -/
  acc : Byte
  /-- PC (R22). -/
  pc : ProgAddr
  /-- STATUS (R39). -/
  flags : Flags
  /-- The stack `STK`, newest entry first; its length is `depth` (R27). -/
  stk : List ProgAddr
  /-- MP0 (R33). -/
  mp0 : BitVec 7
  /-- MP1 (R33). -/
  mp1 : BitVec 7
  /-- BP bit 0 (R34). -/
  bp : Bool
  /-- TBLP (R35). -/
  tblp : Byte
  /-- TBLH bits 6 to 0 (R36). -/
  tblh : BitVec 7
  /-- TBHP bits 2 to 0 (R37). -/
  tbhp : BitVec 3
  /-- INTC (R40). -/
  intc : Intc
  /-- General purpose RAM, 20H to 7FH (R30). -/
  ram : Memory
  /-- Program memory (R26). -/
  rom : Memory
  /-- Timer/event counter (R41, R42). -/
  timer : Timer
  /-- Watchdog (R38). -/
  wdt : Wdt
  /-- Ports (R43, R44). -/
  ports : Ports
  /-- USB and PS2 (R45 to R56). -/
  usb : Usb
  /-- HALT state (60_exceptions.md R430). -/
  halt : Halt
  /-- `CONFIG` and the open parameters (00_scope.md R10, R17). -/
  config : Config
  /-- The model's own: the environment's levels and moves (log 7). -/
  env : Env
  /-- The model's own: ages of the request flags (log 29). -/
  irqAge : IrqAge
  /-- The model's own: the 2 µs waits (log 22). -/
  gap : Gap
  /-- The model's own: instruction cycles spent (log 32). -/
  cyc : Nat
  /-- The model's own: free values drawn so far (log 8). -/
  draws : Nat
deriving DecidableEq, Repr

/-- The machine stops with no fault: it raises no synchronous exception and has no fault mechanism (60_exceptions.md
R400, 93_implementation_defined.md section 1), so this type has no constructor. -/
inductive Fault where
deriving DecidableEq, Repr

/-- The outcomes the spec calls `refuse` (00_scope.md R12): the model does not continue. Each is safe: nothing can be
proved of what the hardware does next. -/
inductive Refusal where
  /-- Raised by `exec` alone, for an instruction without a meaning; no arm uses it. Safe. -/
  | notModelled (mnemonic : String)
  /-- Raised by the fetch: the word is no instruction (30_encoding.md R154). Safe. -/
  | undefinedWord (w : CodeWord)
  /-- Raised by RET, RET A,x and RETI with the stack empty (10_state.md R28). Safe. -/
  | stackUnderflow
  /-- Raised by a flag-setting instruction whose destination is STATUS (40_arithmetic.md R213, 41_logic.md R220,
  42_incdec_rotate.md R244, R253). Safe. -/
  | statusDestination
  /-- Raised by SIZ and SDZ whose destination is PCL (44_branch.md R277). Safe. -/
  | skipToPcl
  /-- Raised by a write of anything but 10000 to WDTS bits 7 to 3 (10_state.md R38, K7). Safe. -/
  | wdtsReserved
  /-- Raised by an access to an unimplemented bank 1 address (10_state.md R49, K9). Safe. -/
  | bank1Unimplemented
deriving DecidableEq, Repr

/-- What an instruction or a step answers. -/
abbrev Out := Host.Outcome State Fault Refusal

/-- The machine right after power-on (column POR of 70_reset_and_hazards.md R610 and R611). A value the spec calls
unknown there is zero here, and an unlisted memory byte is 00H; the FIFOs are empty, marked as the host's, and the host
uses no pipe: DESIGN CHOICE (logs 3, 4, 5, 21). -/
def State.reset : State where
  acc := 0x00#8
  pc := 0x000#11
  flags := { c := false, ac := false, z := false, ov := false, pdf := false, timeout := false }
  stk := []
  mp0 := 0x00#7
  mp1 := 0x00#7
  bp := false
  tblp := 0x00#8
  tblh := 0x00#7
  tbhp := 0#3
  intc := { emi := false, eui := false, eti := false, usbf := false, tf := false }
  ram := []
  rom := []
  timer :=
    { ctl := { te := true, ton := false, tm0 := false, tm1 := false }
      cnt := 0x0000#16, pre := 0x0000#16, buf := 0x00#8, pwRun := false }
  wdt := { ws := 0b111#3, cnt := 0, pre := .none }
  ports := { pa := 0xFF#8, pac := 0xFF#8, pb := 0x9C#8, pbc := 0x9C#8, seenA := 0xFF#8, seenB := 0x9C#8 }
  usb :=
    { usc :=
        { suspend := false, rmotWk := false, urstFlag := false, resumeO := false, ps2Dao := true, ps2Cko := true }
      usr := 0x40#8, scc := 0x00#8, pipeCtrl := 0x03#8, awr := 0x00#8, stall := 0x00#8, pipe := 0x00#8
      sies := 0x00#8
      misc :=
        { request := false, tx := false, clear := false, sel0 := false, sel1 := false, setCmd := false, len0 := false }
      fifo0 := { bytes := [], mark := .fromHost, busy := false }
      fifo1 := { bytes := [], mark := .fromHost, busy := false }
      devAddr := 0x00#7 }
  halt := { halted := false, usbf := false, tf := false, edge := false }
  config := {}
  env := { pads := { pa := 0xFF#8, pb := 0xFF#8, data := true, clk := true }, inputs := [] }
  irqAge := { usb := 0, timer := 0 }
  gap := Gap.none
  cyc := 0
  draws := 0

end Sys2Proof.Machine
end

