-- ==== Sys2Proof/Machine/Flags.lean ====
section
/-! DEFINITION. Every flag computation of the spec: the adder of 00_scope.md R14, the one's complement subtraction of
40_arithmetic.md R200, the decimal adjust of R211, the Z-only and C-only rules (41_logic.md R220, 42_incdec_rotate.md
R244, R253), and STATUS as a byte (10_state.md R39). -/

namespace Sys2Proof.Machine

/-- STATUS as it reads: 0, 0, TO, PDF, OV, Z, AC, C (20_memory.md R107). -/
def Flags.toByte (f : Flags) : Byte :=
  byteOfBits false false f.timeout f.pdf f.ov f.z f.ac f.c

/-- A write of STATUS: C, AC, Z, OV take bits 0 to 3, TO and PDF keep their values (10_state.md R39). -/
def Flags.write (f : Flags) (v : Byte) : Flags :=
  { f with c := v.getLsbD 0, ac := v.getLsbD 1, z := v.getLsbD 2, ov := v.getLsbD 3 }

/-- Z written from an 8-bit result, nothing else (41_logic.md R220, 42_incdec_rotate.md R244). -/
def Flags.zeroFrom (f : Flags) (r : Byte) : Flags := { f with z := r == 0#8 }

/-- C written, nothing else (42_incdec_rotate.md R253). -/
def Flags.withCarry (f : Flags) (c : Bool) : Flags := { f with c := c }

/-- TO and PDF cleared (45_table_misc.md R313). -/
def Flags.clearWdtFlags (f : Flags) : Flags := { f with timeout := false, pdf := false }

/-- The helper `add8(a, b, cin)` of 00_scope.md R14, its four flags put into `f`. -/
def add8 (f : Flags) (a b : Byte) (cin : Bool) : Byte × Flags :=
  let sum := a.toNat + b.toNat + cin.toNat
  let r := BitVec.ofNat 8 sum
  let c7 := decide (256 ≤ sum)
  let c3 := decide (16 ≤ a.toNat % 16 + b.toNat % 16 + cin.toNat)
  let c6 := decide (128 ≤ a.toNat % 128 + b.toNat % 128 + cin.toNat)
  (r, { f with c := c7, ac := c3, ov := c6 ^^ c7, z := r == 0#8 })

/-- `a - b`: add8 of the one's complement with carry in 1 (40_arithmetic.md R200). -/
def sub8 (f : Flags) (a b : Byte) : Byte × Flags := add8 f a (~~~b) true

/-- `a - b - (1 - C)`: add8 of the one's complement with carry in C (40_arithmetic.md R200). -/
def sbc8 (f : Flags) (a b : Byte) : Byte × Flags := add8 f a (~~~b) f.c

/-- Decimal adjust (40_arithmetic.md R211, D28): only C may be set, it is never cleared. -/
def decimalAdjust (f : Flags) (acc : Byte) : Byte × Flags :=
  let lo := acc.toNat % 16
  let hi := acc.toNat / 16
  let rlo := if lo > 9 || f.ac then (lo + 6) % 16 else lo
  let ac1 := if lo > 9 then 1 else 0
  let high := decide (hi + ac1 > 9) || f.c
  let rhi := if high then (hi + 6 + ac1) % 16 else (hi + ac1) % 16
  (BitVec.ofNat 8 (16 * rhi + rlo), f.withCarry high)

/-- A result whose only flag is Z. -/
def zeroOnly (f : Flags) (r : Byte) : Byte × Flags := (r, f.zeroFrom r)

/-- Rotate right by one: `v[0] : v[7:1]` (42_incdec_rotate.md R245). -/
def rotateRight (v : Byte) : Byte := (v.extractLsb' 0 1 ++ v.extractLsb' 1 7 : BitVec (1 + 7))

/-- Rotate left by one: `v[6:0] : v[7]` (42_incdec_rotate.md R249). -/
def rotateLeft (v : Byte) : Byte := (v.extractLsb' 0 7 ++ v.extractLsb' 7 1 : BitVec (7 + 1))

/-- Rotate right through carry: `C : v[7:1]`, C takes `v[0]` (42_incdec_rotate.md R247). -/
def rotateRightCarry (f : Flags) (v : Byte) : Byte × Flags :=
  ((BitVec.ofBool f.c ++ v.extractLsb' 1 7 : BitVec (1 + 7)), f.withCarry (v.getLsbD 0))

/-- Rotate left through carry: `v[6:0] : C`, C takes `v[7]` (42_incdec_rotate.md R251). -/
def rotateLeftCarry (f : Flags) (v : Byte) : Byte × Flags :=
  ((v.extractLsb' 0 7 ++ BitVec.ofBool f.c : BitVec (7 + 1)), f.withCarry (v.getLsbD 7))

/-- Nibbles interchanged (45_table_misc.md R316). -/
def swapNibbles (v : Byte) : Byte := (v.extractLsb' 0 4 ++ v.extractLsb' 4 4 : BitVec (4 + 4))

/-- The byte `2^i` (43_move_bit.md R263, R264). -/
def bitMask (i : BitVec 3) : Byte := BitVec.ofNat 8 (2 ^ i.toNat)

/-- INTC as it reads: bits 7, 5 and 2 are 0 (10_state.md R40). -/
def Intc.toByte (i : Intc) : Byte := byteOfBits false i.tf false i.usbf i.eti false i.eui i.emi

/-- INTC as written: bits 7, 5 and 2 are ignored (10_state.md R40). -/
def Intc.ofByte (v : Byte) : Intc :=
  { emi := v.getLsbD 0, eui := v.getLsbD 1, eti := v.getLsbD 3, usbf := v.getLsbD 4, tf := v.getLsbD 6 }

/-- TMRC as it reads: bits 5 and 2 to 0 are 0 (10_state.md R42). -/
def Tmrc.toByte (t : Tmrc) : Byte := byteOfBits t.tm1 t.tm0 false t.ton t.te false false false

/-- TMRC as written: bits 5 and 2 to 0 are ignored (10_state.md R42). -/
def Tmrc.ofByte (v : Byte) : Tmrc :=
  { te := v.getLsbD 3, ton := v.getLsbD 4, tm0 := v.getLsbD 6, tm1 := v.getLsbD 7 }

end Sys2Proof.Machine
end

