-- ==== Sys2Proof/Machine/Ops.lean ====
section
/-! DEFINITION. The named operations over memory, the registers and the stack; taking an interrupt as one shared
operation and the return from one beside it (60_exceptions.md R411, R412, R416); the fetch. -/

namespace Sys2Proof.Machine

/-- What an unlisted memory byte reads as: 00H, DESIGN CHOICE (logs 4, 5). -/
def Memory.blank : Byte := 0x00#8

/-- The byte at an address. -/
def Memory.read : Memory → Nat → Byte
  | [], _ => Memory.blank
  | (b, v) :: rest, a => if a = b then v else if a < b then Memory.blank else Memory.read rest a

/-- Put `v` in front of cells that all lie above `a`, or nothing if `v` is what an unlisted byte reads as. -/
def Memory.consCell (a : Nat) (v : Byte) (rest : Memory) : Memory :=
  if v = Memory.blank then rest else (a, v) :: rest

/-- Write one byte, keeping the canonical form. -/
def Memory.write : Memory → Nat → Byte → Memory
  | [], a, v => Memory.consCell a v []
  | (b, w) :: rest, a, v =>
    if a < b then Memory.consCell a v ((b, w) :: rest)
    else if a = b then Memory.consCell a v rest
    else (b, w) :: Memory.write rest a v

/-- Addresses strictly rising from `lo`, no entry equal to what an unlisted byte reads as. -/
def Memory.sortedFrom : Nat → Memory → Bool
  | _, [] => true
  | lo, (a, v) :: rest => decide (lo ≤ a) && (v != Memory.blank) && Memory.sortedFrom (a + 1) rest

/-- The canonical form of a memory. -/
def Memory.wf (m : Memory) : Bool := m.sortedFrom 0

/-- Every listed address lies in `lo .. hi - 1`. -/
def Memory.within (lo hi : Nat) (m : Memory) : Bool := m.all fun c => decide (lo ≤ c.1) && decide (c.1 < hi)

def State.setAcc (s : State) (v : Byte) : State := { s with acc := v }
def State.setPc (s : State) (a : ProgAddr) : State := { s with pc := a }
def State.setFlags (s : State) (f : Flags) : State := { s with flags := f }
def State.setStk (s : State) (l : List ProgAddr) : State := { s with stk := l }
def State.setIntc (s : State) (i : Intc) : State := { s with intc := i }
def State.setTimer (s : State) (t : Timer) : State := { s with timer := t }
def State.setWdt (s : State) (w : Wdt) : State := { s with wdt := w }
def State.setPorts (s : State) (p : Ports) : State := { s with ports := p }
def State.setUsb (s : State) (u : Usb) : State := { s with usb := u }
def State.setHalt (s : State) (h : Halt) : State := { s with halt := h }
def State.setGap (s : State) (g : Gap) : State := { s with gap := g }

/-- `n` more instruction cycles spent (70_reset_and_hazards.md R641). -/
def State.addCycles (s : State) (n : Nat) : State := { s with cyc := s.cyc + n }

/-- The free value `k` places after those drawn so far (00_scope.md R12). -/
def State.drawByte (s : State) (k : Nat) : Byte := Config.draw (s.draws + k)

/-- `n` free values have been drawn. -/
def State.addDraws (s : State) (n : Nat) : State := { s with draws := s.draws + n }

/-- The request flag USBF rises (60_exceptions.md R404). -/
def State.requestUsb (s : State) : State := s.setIntc { s.intc with usbf := true }

/-- The request flag TF rises (60_exceptions.md R405). -/
def State.requestTimer (s : State) : State := s.setIntc { s.intc with tf := true }

/-- `skip()`: the next word is stepped over, one more cycle (44_branch.md R271). -/
def State.skip (s : State) : State := (s.setPc (s.pc + 1#11)).addCycles 1

/-- `if cond then skip()`. -/
def State.skipIf (s : State) (cond : Bool) : State := if cond then s.skip else s

/-- `push(v)`: with four entries on the stack the oldest is lost (10_state.md R27). -/
def State.push (s : State) (a : ProgAddr) : State := s.setStk ((a :: s.stk).take 4)

/-- `PC <- pop()`; with the stack empty the spec refuses (10_state.md R28). -/
def State.popPc (s : State) : Out :=
  match s.stk with
  | [] => .refused .stackUnderflow
  | a :: rest => .next ((s.setStk rest).setPc a)

/-- Go on with the state of a next outcome. -/
def andThen (o : Out) (k : State → Out) : Out :=
  match o with
  | .next s => k s
  | .fault r => .fault r
  | .refused r => .refused r

/-- The return from subroutine or interrupt: pop PC, then what the form adds, two cycles (44_branch.md R282 to R284). -/
def returnWith (s : State) (after : State → State) : Out :=
  andThen s.popPc fun t => .next ((after t).addCycles 2)

/-- The two interrupt sources (60_exceptions.md R403). -/
inductive IrqSource where
  | usb
  | timer
deriving DecidableEq, Repr

/-- The acknowledge condition of 60_exceptions.md R411 for one source, with `IRQ_LATENCY` (00_scope.md R17): the flag
has been seen set at more than `IRQ_LATENCY` boundaries. -/
def State.irqOk (s : State) : IrqSource → Bool
  | .usb =>
    s.intc.emi && s.intc.eui && s.intc.usbf && decide (s.stk.length < 4) && decide (s.config.irqLatency < s.irqAge.usb)
  | .timer =>
    s.intc.emi && s.intc.eti && s.intc.tf && decide (s.stk.length < 4) &&
      decide (s.config.irqLatency < s.irqAge.timer)

/-- Which source is acknowledged: the USB interrupt first (60_exceptions.md R408, R411). -/
def State.acknowledged (s : State) : Option IrqSource :=
  if s.irqOk .usb then some .usb else if s.irqOk .timer then some .timer else none

/-- The entry address of a source (60_exceptions.md R403). -/
def IrqSource.vector : IrqSource → ProgAddr
  | .usb => 0x004#11
  | .timer => 0x00C#11

/-- INTC after the entry: the source's request flag and EMI cleared (60_exceptions.md R412). -/
def Intc.acknowledge (i : Intc) : IrqSource → Intc
  | .usb => { i with usbf := false, emi := false }
  | .timer => { i with tf := false, emi := false }

/-- The age of a request flag that is 0 is 0: a request raised again is a new one (`IRQ_LATENCY` of 00_scope.md R17,
log 29). -/
def State.settleAges (s : State) : State :=
  { s with
    irqAge :=
      { usb := if s.intc.usbf then s.irqAge.usb else 0
        timer := if s.intc.tf then s.irqAge.timer else 0 } }

/-- The entry sequence `enter(src)` of 60_exceptions.md R412. `IRQ_ENTRY_CYCLES` pass (R414). -/
def enterInterrupt (src : IrqSource) (s : State) : State :=
  ((((s.push s.pc).setPc src.vector).setIntc (s.intc.acknowledge src)).settleAges).addCycles s.config.irqEntryCycles

/-- RETI: pop PC, set EMI (44_branch.md R284, 60_exceptions.md R416). -/
def returnFromInterrupt (s : State) : Out :=
  returnWith s fun t => t.setIntc { t.intc with emi := true }

/-- `wdtClear()`: WDTCNT and its prescaler to 0, `pre` forgotten (61_timers_wdt.md R470, R474). -/
def State.wdtClear (s : State) : State := s.setWdt { s.wdt with cnt := 0, pre := .none }

/-- A CLR WDT that clears: the watchdog, PDF and TO (45_table_misc.md R313). -/
def State.wdtClearFlags (s : State) : State := s.wdtClear.setFlags s.flags.clearWdtFlags

/-- CLR WDT1 or CLR WDT2: `mine` is the mark this one leaves, `other` the mark that completes the pair
(45_table_misc.md R314, R315, D25). -/
def State.preclearWdt (s : State) (mine other : Preclear) : State :=
  match s.config.clrWdtTimes with
  | .one => s.wdtClearFlags
  | .two => if s.wdt.pre = other then s.wdtClearFlags else s.setWdt { s.wdt with pre := mine }

/-- `ROM[a]`: the low 14 bits of the two bytes of word `a` (20_memory.md R112). -/
def State.romWord (s : State) (a : ProgAddr) : CodeWord :=
  (s.rom.read (2 * a.toNat + 1) ++ s.rom.read (2 * a.toNat)).extractLsb' 0 14

/-- Program memory with the word `w` placed at `a`: what loads a program, never done by the machine
(10_state.md R26). -/
def placeWord (rom : Memory) (a : ProgAddr) (w : Nat) : Memory :=
  (rom.write (2 * a.toNat) (BitVec.ofNat 8 w)).write (2 * a.toNat + 1) (BitVec.ofNat 8 (w / 256 % 64))

/-- Fetch the word at PC, decode it by `ENCODING`, and increment PC modulo 2048 (10_state.md R22, R23; 30_encoding.md
R147, R154). -/
def fetch (s : State) : Except Refusal (Instr × State) :=
  match s.config.decode (s.romWord s.pc) with
  | .ok i => .ok (i, s.setPc (s.pc + 1#11))
  | .error _ => .error (.undefinedWord (s.romWord s.pc))

end Sys2Proof.Machine
end

