-- ==== Sys2Proof/Machine/Timer.lean ====
section
/-! DEFINITION. The timer/event counter (61_timers_wdt.md R450 to R465) and the watchdog's counting (R470 to R473). -/

namespace Sys2Proof.Machine

/-- The operating modes, TM1 TM0 (61_timers_wdt.md R458). -/
inductive TimerMode where
  | unused
  | event
  | timer
  | pulseWidth
deriving DecidableEq, Repr

/-- The mode TMRC selects (61_timers_wdt.md R458). -/
def Tmrc.mode (t : Tmrc) : TimerMode :=
  match t.tm1, t.tm0 with
  | false, false => .unused
  | false, true => .event
  | true, false => .timer
  | true, true => .pulseWidth

/-- `count()`: at FFFFH reload from TPRE and set TF, else one more (61_timers_wdt.md R459). -/
def State.timerCount (s : State) : State :=
  if s.timer.cnt = 0xFFFF#16 then (s.setTimer { s.timer with cnt := s.timer.pre }).requestTimer
  else s.setTimer { s.timer with cnt := s.timer.cnt + 1#16 }

/-- `n` calls of `count()` (61_timers_wdt.md R461). -/
def State.timerCountN : Nat → State → State
  | 0, s => s
  | n + 1, s => State.timerCountN n s.timerCount

/-- Write of TMRL: the low-byte buffer only (61_timers_wdt.md R453). -/
def Timer.writeLow (t : Timer) (v : Byte) : Timer := { t with buf := v }

/-- Write of TMRH: the preload register, and the counter if TON = 0 (61_timers_wdt.md R454). -/
def Timer.writeHigh (t : Timer) (v : Byte) : Timer :=
  { t with pre := v ++ t.buf, cnt := if t.ctl.ton then t.cnt else v ++ t.buf }

/-- Read of TMRH: the counter's high byte (61_timers_wdt.md R455). -/
def Timer.high (t : Timer) : Byte := t.cnt.extractLsb' 8 8

/-- What a read of TMRH leaves: the counter's low byte in the buffer (61_timers_wdt.md R455). -/
def Timer.latchLow (t : Timer) : Timer := { t with buf := t.cnt.extractLsb' 0 8 }

/-- Write of TMRC; TON = 1 in pulse-width mode arms a new measurement (61_timers_wdt.md R457). -/
def Timer.writeCtl (t : Timer) (v : Byte) : Timer :=
  let ctl := Tmrc.ofByte v
  { t with ctl := ctl, pwRun := t.pwRun && !(ctl.ton && ctl.mode == .pulseWidth) }

/-- The rising edge from `old` to `new`, or the falling one. -/
def isEdge (rising old new : Bool) : Bool := if rising then !old && new else old && !new

/-- The TMR input seen at a boundary: `old` is the last sampled level, `new` the level now. Event count mode counts the
active edge, TE = 0 rising (61_timers_wdt.md R462). Pulse-width mode starts on the rising edge when TE = 1, on the
falling one when TE = 0, and ends on the opposite edge (R463); it does not run while halted (60_exceptions.md R430,
log 25). -/
def State.timerEdge (s : State) (old new : Bool) : State :=
  if s.timer.ctl.ton then
    match s.timer.ctl.mode with
    | .event => if isEdge (!s.timer.ctl.te) old new then s.timerCount else s
    | .pulseWidth =>
      if s.halt.halted then s
      else if s.timer.pwRun then
        if isEdge (!s.timer.ctl.te) old new then
          s.setTimer { s.timer with pwRun := false, ctl := { s.timer.ctl with ton := false } }
        else s
      else if isEdge s.timer.ctl.te old new then s.setTimer { s.timer with pwRun := true }
      else s
    | .unused => s
    | .timer => s
  else s

/-- The counts of an instruction of `n` cycles, applied when it completes: TON must be 1 before and after it
(61_timers_wdt.md R461, R463). -/
def State.timerRun (s : State) (tonBefore : Bool) (n : Nat) : State :=
  if tonBefore && s.timer.ctl.ton then
    match s.timer.ctl.mode with
    | .timer => State.timerCountN n s
    | .pulseWidth => if s.timer.pwRun then State.timerCountN n s else s
    | .unused => s
    | .event => s
  else s

/-- The watchdog's limit, 256 times the division ratio (61_timers_wdt.md R470, R471). -/
def Wdt.limit (w : Wdt) : Nat := 256 * 2 ^ w.ws.toNat

/-- `n` clocks of the watchdog's source; a disabled watchdog never advances (61_timers_wdt.md R472). -/
def State.wdtTicks (s : State) (n : Nat) : State :=
  if s.config.wdtEnable then s.setWdt { s.wdt with cnt := s.wdt.cnt + n } else s

/-- A time-out: the count has reached the limit (61_timers_wdt.md R470, R473, log 27). -/
def State.wdtTimedOut (s : State) : Bool := s.config.wdtEnable && decide (s.wdt.limit ≤ s.wdt.cnt)

/-- `n` cycles of a wait have passed, unless it began in this very instruction (log 22). -/
def Countdown.pass (c : Countdown) (n : Nat) : Countdown :=
  { left := if c.fresh then c.left else c.left - n, fresh := false }

/-- `n` cycles of each wait have passed. -/
def Gap.pass (g : Gap) (n : Nat) : Gap :=
  { request := g.request.pass n, read := g.read.pass n, write := g.write.pass n }

/-- Step 6 of 70_reset_and_hazards.md R645: the agents count the cycles of the instruction that led from `before` to
`after`: the timer, the watchdog on the instruction clock, and the 2 µs waits (62_ports_usb_ps2.md R546, log 22). HALT's
own cycle is counted like any other, though the machine is halted after it: 61_timers_wdt.md R461 and R472 do not name
it, DESIGN CHOICE (log 28). -/
def countInstruction (before after : State) : State :=
  let n := after.cyc - before.cyc
  let s := after.settleAges.timerRun before.timer.ctl.ton n
  let s := if s.config.wdtSrc = .sys4 then s.wdtTicks n else s
  s.setGap (s.gap.pass n)

end Sys2Proof.Machine
end

