-- ==== Sys2Proof/Machine/Ports.lean ====
section
/-! DEFINITION. The input/output ports (62_ports_usb_ps2.md R500 to R508) and the sampling of the pads at an
instruction boundary (R506; 60_exceptions.md R433; 61_timers_wdt.md R462, R463). -/

namespace Sys2Proof.Machine

/-- The port B lines that exist: bits 7, 4, 3 and 2 (62_ports_usb_ps2.md R505). -/
def portBMask : Byte := 0x9C#8

/-- A read of a port: the pad of an input line, the latch of an output line (62_ports_usb_ps2.md R502). -/
def portRead (control pads latch : Byte) : Byte := (control &&& pads) ||| (~~~control &&& latch)

/-- The port B bits that exist from `v`, the reserved bits from `unknown` (62_ports_usb_ps2.md R505, K11). -/
def withReservedB (v unknown : Byte) : Byte := (v &&& portBMask) ||| (unknown &&& ~~~portBMask)

/-- The port A lines of one output mode (00_scope.md R9 option 10). -/
def modeMask (c : Config) (m : OutMode) : Byte :=
  byteOfBits (c.paOutMode[7] == m) (c.paOutMode[6] == m) (c.paOutMode[5] == m) (c.paOutMode[4] == m)
    (c.paOutMode[3] == m) (c.paOutMode[2] == m) (c.paOutMode[1] == m) (c.paOutMode[0] == m)

/-- The levels on the pads of port A: an output line of CMOS type is at its latch's level; an NMOS one drives only 0 and
a PMOS one only 1 (62_ports_usb_ps2.md R504, R506, log 26). -/
def State.padsA (s : State) : Byte :=
  let out := ~~~s.ports.pac
  let high := out &&& s.ports.pa &&& ~~~modeMask s.config .nmos
  let low := out &&& ~~~s.ports.pa &&& ~~~modeMask s.config .pmos
  (s.env.pads.pa &&& ~~~low) ||| high

/-- The levels on the pads of port B, whose outputs are CMOS (62_ports_usb_ps2.md R504, R506). -/
def State.padsB (s : State) : Byte :=
  portRead s.ports.pbc s.env.pads.pb s.ports.pb &&& portBMask

/-- Whether a selected wake-up edge came between the sampled levels and the levels now: falling, and also rising on PA2
and PA3 (60_exceptions.md R433). Whether the line must be an input is not stated: DESIGN CHOICE, it need not (log 26).
-/
def wakeEdge (c : Config) (oldA newA oldB newB : Byte) : Bool :=
  (c.wakeA &&& ((oldA &&& ~~~newA) ||| (~~~oldA &&& newA &&& 0x0C#8))) != 0x00#8
    || (c.wakeB4 && oldB.getLsbD 4 && !newB.getLsbD 4)
    || (c.wakeB7 && oldB.getLsbD 7 && !newB.getLsbD 7)

/-- The environment sets the pad levels of this boundary (62_ports_usb_ps2.md R506); the edge detectors of the wake-up
lines and of the TMR input PA7 see the change (60_exceptions.md R433, 61_timers_wdt.md R458). That PA7 need not be an
input for the TMR function is a DESIGN CHOICE (91_not_in_source.md N18, log 26). -/
def samplePads (p : Pads) (s : State) : State :=
  let t := { s with env := { s.env with pads := p } }
  let a := t.padsA
  let b := t.padsB
  let u := (t.setPorts { t.ports with seenA := a, seenB := b }).setHalt
    { t.halt with edge := wakeEdge s.config s.ports.seenA a s.ports.seenB b }
  u.timerEdge (s.ports.seenA.getLsbD 7) (a.getLsbD 7)

end Sys2Proof.Machine
end

