-- ==== Sys2Proof/Machine/Usb.lean ====
section
/-! DEFINITION. The USB/PS2 block as a program and its environment see it (62_ports_usb_ps2.md R510 to R549): the
registers with read or write rules of their own, the two FIFOs, and the events of the host. -/

namespace Sys2Proof.Machine

/-- A byte with bit `i` set to `b`. -/
def setBitTo (v : Byte) (i : BitVec 3) (b : Bool) : Byte := if b then v ||| bitMask i else v &&& ~~~bitMask i

/-- The bit number of endpoint `k` in USR, PIPE, STALL and Pipe_ctrl (62_ports_usb_ps2.md R547). -/
def Endpoint.bit : Endpoint → BitVec 3
  | .ep0 => 0#3
  | .ep1 => 1#3

/-- SELPS2 = 0 and SELUSB = 1: the USB interface is selected (62_ports_usb_ps2.md R518). -/
def Usb.usbSelected (u : Usb) : Bool := u.usr.getLsbD 5 && !u.usr.getLsbD 4

/-- SELPS2 = SELUSB: neither interface is selected (62_ports_usb_ps2.md R518, K12). -/
def Usb.noneSelected (u : Usb) : Bool := u.usr.getLsbD 5 == u.usr.getLsbD 4

/-- A read of USC (62_ports_usb_ps2.md R510, R516): the write-only bits 7, 6 and 1 read as free values (K10), PS2_CKI
and PS2_DAI too while no interface is selected (K12). -/
def Usb.readUsc (u : Usb) (pads : Pads) (unknown : Byte) : Byte :=
  let cki := if u.noneSelected then unknown.getLsbD 5 else u.usc.ps2Cko && pads.clk
  let dai := if u.noneSelected then unknown.getLsbD 4 else u.usc.ps2Dao && pads.data
  byteOfBits (unknown.getLsbD 7) (unknown.getLsbD 6) cki dai u.usc.resumeO u.usc.urstFlag (unknown.getLsbD 1)
    u.usc.suspend

/-- A write of USC: bits 1, 2, 6 and 7 (62_ports_usb_ps2.md R510). -/
def Usc.write (c : Usc) (v : Byte) : Usc :=
  { c with rmotWk := v.getLsbD 1, urstFlag := v.getLsbD 2, ps2Dao := v.getLsbD 6, ps2Cko := v.getLsbD 7 }

/-- A write of USR: all bits stored; a PIPE bit is cleared when the program clears the endpoint's flag
(62_ports_usb_ps2.md R517, R519, R547). -/
def Usb.writeUsr (u : Usb) (v : Byte) : Usb :=
  let cleared := u.usr &&& ~~~v &&& 0x03#8
  { u with usr := v, pipe := u.pipe &&& ~~~cleared }

/-- A write of AWR: with Adr_set = 0 the SIE takes the address at once (62_ports_usb_ps2.md R548). -/
def Usb.writeAwr (u : Usb) (v : Byte) : Usb :=
  { u with awr := v, devAddr := if u.sies.getLsbD 0 then u.devAddr else v.extractLsb' 1 7 }

/-- A write of SIES: bits 0, 1, 2, 5 and 7; bits 3, 4 and 6 are read only (10_state.md R54, 62_ports_usb_ps2.md R549).
-/
def Usb.writeSies (u : Usb) (v : Byte) : Usb := { u with sies := (v &&& 0xA7#8) ||| (u.sies &&& 0x58#8) }

/-- The FIFO that Sel_pipe1 and Sel_pipe0 select, if one exists (62_ports_usb_ps2.md R541, K17). -/
def Misc.selected (m : Misc) : Option Endpoint :=
  match m.sel1, m.sel0 with
  | false, false => some .ep0
  | false, true => some .ep1
  | true, _ => none

/-- The FIFO of endpoint `k`. -/
def Usb.fifo (u : Usb) : Endpoint → Fifo
  | .ep0 => u.fifo0
  | .ep1 => u.fifo1

/-- The block with endpoint `k`'s FIFO replaced. -/
def Usb.setFifo (u : Usb) (k : Endpoint) (f : Fifo) : Usb :=
  match k with
  | .ep0 => { u with fifo0 := f }
  | .ep1 => { u with fifo1 := f }

/-- The FIFO holds a byte for the MCU to read and the host is not using the pipe (62_ports_usb_ps2.md R542). -/
def Fifo.readable (f : Fifo) : Bool := f.mark == .fromHost && !f.busy && !f.bytes.isEmpty

/-- The FIFO accepts a byte from the MCU: it holds no byte of the host's, is not handed over, has fewer than eight
bytes, and the host is not using the pipe (62_ports_usb_ps2.md R542, log 21). -/
def Fifo.writable (f : Fifo) : Bool :=
  !f.busy &&
    match f.mark with
    | .fromHost => f.bytes.isEmpty
    | .filling => decide (f.bytes.length < 8)
    | .handed => false

/-- Ready of MISC once it is valid (62_ports_usb_ps2.md R542): 0 without a request or a selected FIFO. -/
def Usb.ready (u : Usb) : Bool :=
  u.misc.request &&
    match u.misc.selected with
    | none => false
    | some k => if u.misc.tx then (u.fifo k).writable else (u.fifo k).readable

/-- MISC as it reads with the given Ready bit (10_state.md R55). -/
def Misc.toByte (m : Misc) (ready : Bool) : Byte :=
  byteOfBits m.len0 ready m.setCmd m.sel1 m.sel0 m.clear m.tx m.request

/-- The bits of MISC that a write stores: all but Ready (10_state.md R55, log 20). -/
def Misc.ofByte (v : Byte) : Misc :=
  { request := v.getLsbD 0, tx := v.getLsbD 1, clear := v.getLsbD 2, sel0 := v.getLsbD 3, sel1 := v.getLsbD 4
    setCmd := v.getLsbD 5, len0 := v.getLsbD 7 }

/-- `FIFO_GAP` in instruction cycles (00_scope.md R17, 62_ports_usb_ps2.md R546). -/
def fifoGap (c : Config) : Nat :=
  match c.fSys with
  | .mhz12 => 6
  | .mhz6 => 3

/-- A wait of 2 µs that begins in this instruction (62_ports_usb_ps2.md R546). -/
def startGap (c : Config) : Countdown := { left := fifoGap c, fresh := true }

/-- The wait before Ready may be checked begins (62_ports_usb_ps2.md R546). -/
def State.beginRequestGap (s : State) : State := s.setGap { s.gap with request := startGap s.config }

/-- The wait before the next reading action begins (62_ports_usb_ps2.md R546). -/
def State.beginReadGap (s : State) : State := s.setGap { s.gap with read := startGap s.config }

/-- The wait before the next writing action begins (62_ports_usb_ps2.md R546). -/
def State.beginWriteGap (s : State) : State := s.setGap { s.gap with write := startGap s.config }

/-- A reading action now is sooner than 2 µs after the previous step: the last reading action, or the write that set
Request (62_ports_usb_ps2.md R546, K16). -/
def Gap.readTooSoon (g : Gap) : Bool := decide (0 < g.request.left) || decide (0 < g.read.left)

/-- A writing action now is sooner than 2 µs after the previous step (62_ports_usb_ps2.md R546, K16). -/
def Gap.writeTooSoon (g : Gap) : Bool := decide (0 < g.request.left) || decide (0 < g.write.left)

/-- The flip of Tx with Request still 1: a write request's bytes are handed to the SIE as the next IN packet, a read
request's FIFO is released to the host (62_ports_usb_ps2.md R541). The spec does not say what the flip of a write
request does that never was ready, because an earlier packet is still handed over or the host's bytes are unread: DESIGN
CHOICE, what the FIFO holds is dropped and an empty packet is handed over (log 21). -/
def Fifo.commit (f : Fifo) (wasWrite : Bool) : Fifo :=
  if wasWrite then { f with bytes := if f.mark = .filling then f.bytes else [], mark := .handed }
  else { f with bytes := [], mark := .fromHost }

/-- An emptied FIFO (62_ports_usb_ps2.md R545). -/
def Fifo.emptied (f : Fifo) : Fifo := { f with bytes := [], mark := .fromHost }

/-- The block with endpoint `k`'s FIFO, if there is one, changed by `g`. -/
def Usb.mapFifo (u : Usb) (k : Option Endpoint) (g : Fifo → Fifo) : Usb :=
  match k with
  | none => u
  | some k => u.setFifo k (g (u.fifo k))

/-- A write of MISC (62_ports_usb_ps2.md R541, R545): the commit of an open request whose Tx flips, the new bits, and
Clear with a request. Where the one write also changes Sel_pipe the spec does not say which FIFO is committed: DESIGN
CHOICE, the one selected before the write; and Clear empties the one selected by it (log 21). -/
def Usb.writeMisc (u : Usb) (v : Byte) : Usb :=
  let old := u.misc
  let new := Misc.ofByte v
  let u1 := if old.request && new.request && (old.tx != new.tx) then u.mapFifo old.selected (·.commit old.tx) else u
  let u2 := { u1 with misc := new }
  if new.request && new.clear then u2.mapFifo new.selected Fifo.emptied else u2

/-- The instruction's write of MISC: a Request that rises starts the 2 µs wait for Ready (62_ports_usb_ps2.md R546). -/
def State.writeMisc (s : State) (v : Byte) : State :=
  let t := s.setUsb (s.usb.writeMisc v)
  if !s.usb.misc.request && v.getLsbD 0 then t.beginRequestGap else t

/-- The instruction's read of MISC; sooner than 2 µs after the write that set Request the value read is drawn, all eight
bits (62_ports_usb_ps2.md R546, K16). Without a request, or with no FIFO selected, Ready is 0 by R542 and K17; that the
whole read is then exact inside the wait too is a DESIGN CHOICE (log 22). -/
def State.readMisc (s : State) : Byte × State :=
  if s.usb.misc.request && s.usb.misc.selected.isSome && decide (0 < s.gap.request.left) then
    (s.drawByte 0, s.addDraws 1)
  else (s.usb.misc.toByte s.usb.ready, s)

/-- An open request for FIFO `k` in the given direction (62_ports_usb_ps2.md R541, R543). -/
def Usb.openFor (u : Usb) (k : Endpoint) (write : Bool) : Bool :=
  u.misc.request && (u.misc.selected == some k) && (u.misc.tx == write)

/-- A FIFO without its first byte. -/
def Fifo.pop (f : Fifo) : Fifo := { f with bytes := f.bytes.tail }

/-- A FIFO with the MCU's byte `v` appended (62_ports_usb_ps2.md R543). -/
def Fifo.append (f : Fifo) (v : Byte) : Fifo := { f with bytes := f.bytes ++ [v], mark := .filling }

/-- Len0 "must be cleared by a read action to the corresponding FIFO", endpoint 0's (62_ports_usb_ps2.md R545). -/
def Usb.readAction (u : Usb) : Endpoint → Usb
  | .ep0 => { u with misc := { u.misc with len0 := false } }
  | .ep1 => u

/-- The instruction's read of the FIFO `k` register (62_ports_usb_ps2.md R543). Without an open read request, or with
Ready = 0, the value is free. Too soon the value is free (R546, K16), and whether the byte was taken is free (log 22).
-/
def State.readFifo (s : State) (k : Endpoint) : Byte × State :=
  if s.usb.openFor k false then
    let u := s.usb.readAction k
    let f := s.usb.fifo k
    if f.readable then
      if s.gap.readTooSoon then
        let taken := (s.drawByte 1).getLsbD 0
        (s.drawByte 0, ((s.setUsb (if taken then u.setFifo k f.pop else u)).beginReadGap).addDraws 2)
      else (f.bytes.headD 0x00#8, (s.setUsb (u.setFifo k f.pop)).beginReadGap)
    else (s.drawByte 0, (s.setUsb u).addDraws 1)
  else (s.drawByte 0, s.addDraws 1)

/-- The instruction's write of the FIFO `k` register (62_ports_usb_ps2.md R543). Without an open write request, or with
Ready = 0, it is lost; too soon it is lost as well (D12, K16, log 22). -/
def State.writeFifo (s : State) (k : Endpoint) (v : Byte) : State :=
  let f := s.usb.fifo k
  if s.usb.openFor k true && f.writable then
    (if s.gap.writeTooSoon then s else s.setUsb (s.usb.setFifo k (f.append v))).beginWriteGap
  else s

/-- What raises an endpoint event: EPkIF, PIPE bit `k` and USBF (62_ports_usb_ps2.md R517). -/
def State.raiseEndpoint (s : State) (k : Endpoint) : State :=
  (s.setUsb { s.usb with usr := setBitTo s.usb.usr k.bit true, pipe := setBitTo s.usb.pipe k.bit true }).requestUsb

/-- A packet of the host's in FIFO `k`, at most eight bytes (62_ports_usb_ps2.md R540). -/
def Usb.hostFills (u : Usb) (k : Endpoint) (bytes : List Byte) : Usb :=
  u.setFifo k { u.fifo k with bytes := bytes.take 8, mark := .fromHost }

/-- Set CMD and Len0 "concern endpoint 0's control transfers" (62_ports_usb_ps2.md R545): a packet of another endpoint
leaves MISC as it is. -/
def Misc.onControl (m : Misc) (k : Endpoint) (new : Misc) : Misc :=
  match k with
  | .ep0 => new
  | .ep1 => m

/-- An OUT packet without bytes: the FIFO is empty, and for endpoint 0 Len0 is set (62_ports_usb_ps2.md R545). -/
def Usb.zeroPacket (u : Usb) (k : Endpoint) : Usb :=
  let v := u.hostFills k []
  { v with sies := setBitTo v.sies 3#3 false, misc := v.misc.onControl k { v.misc with len0 := true } }

/-- The SIE's side of an access: Set CMD, Len0, OUT, IN, the FIFO and the device address (10_state.md R54, R55;
62_ports_usb_ps2.md R545, R548, R549, log 23). With Adr_set = 1 the address is taken at an IN on either endpoint: R548
says only "by the IN operation", DESIGN CHOICE (log 24). -/
def Usb.packetEffect (u : Usb) (k : Endpoint) : Packet → Usb
  | .setup bytes =>
    let v := u.hostFills k bytes
    { v with
      sies := setBitTo (setBitTo v.sies 2#3 false) 3#3 false
      misc := v.misc.onControl k { v.misc with setCmd := true, len0 := false } }
  | .out bytes =>
    if bytes.isEmpty then u.zeroPacket k
    else
      let v := u.hostFills k bytes
      { v with sies := setBitTo (setBitTo v.sies 2#3 true) 3#3 false }
  | .outZero => u.zeroPacket k
  | .inTaken =>
    let v := u.hostFills k []
    if v.sies.getLsbD 0 then
      { v with devAddr := v.awr.extractLsb' 1 7, sies := setBitTo (setBitTo v.sies 0#3 false) 3#3 true }
    else { v with sies := setBitTo v.sies 3#3 true }
  | .naked => { u with sies := setBitTo u.sies 4#3 true }

/-- The packet is a SETUP to the control endpoint. -/
def Packet.isCommand (p : Packet) (k : Endpoint) : Bool :=
  match p, k with
  | .setup _, .ep0 => true
  | _, _ => false

/-- The event `usb_access(k)` (62_ports_usb_ps2.md R517, R549): while EPkIF is 1 it raises nothing, and only a SETUP to
endpoint 0 is taken, since "nothing is missed by the SETUP command from the host" (R545, log 23); a NAKed token raises
nothing either while MNI = 1. It leaves the host's use of the pipe as it is: DESIGN CHOICE (log 21). -/
def State.usbAccess (s : State) (k : Endpoint) (p : Packet) : State :=
  if s.usb.usr.getLsbD k.bit.toNat then
    if p.isCommand k then s.setUsb (s.usb.packetEffect k p) else s
  else
    let t := s.setUsb (s.usb.packetEffect k p)
    if p = .naked && s.usb.sies.getLsbD 7 then t else t.raiseEndpoint k

/-- The event `usb_suspend` (62_ports_usb_ps2.md R511). -/
def State.usbSuspend (s : State) : State :=
  (s.setUsb { s.usb with usc := { s.usb.usc with suspend := true } }).requestUsb

/-- The event `usb_resume_start` (62_ports_usb_ps2.md R513). -/
def State.usbResumeStart (s : State) : State :=
  (s.setUsb { s.usb with usc := { s.usb.usc with resumeO := true } }).requestUsb

/-- The event `usb_resume_end` (62_ports_usb_ps2.md R511). -/
def State.usbResumeEnd (s : State) : State :=
  (s.setUsb { s.usb with usc := { s.usb.usc with suspend := false, resumeO := false } }).requestUsb

/-- The host begins or ends using endpoint `k`'s pipe (62_ports_usb_ps2.md R542). The events of R540 have no begin or
end of that use: DESIGN CHOICE, it is a move of its own, which raises nothing, so a use can end without the USB_INT that
R542 names; the access that raises it, `State.usbAccess`, is another move and does not end the use (log 21). -/
def Usb.setBusy (u : Usb) (k : Endpoint) (b : Bool) : Usb := u.setFifo k { u.fifo k with busy := b }

/-- The read-only SIES bits IN, NAK and EOT follow the bus (10_state.md R54, K18). -/
def Usb.setSiesBus (u : Usb) (inToken nak eot : Bool) : Usb :=
  { u with sies := setBitTo (setBitTo (setBitTo u.sies 3#3 inToken) 4#3 nak) 6#3 eot }

end Sys2Proof.Machine
end

