-- ==== Sys2Proof/Machine/Reset.lean ====
section
/-! DEFINITION. The seven resets (70_reset_and_hazards.md R600, R605, R606, R610 to R612), register by register: a digit
of the table writes the bit, `u` keeps it, `x` draws it. -/

namespace Sys2Proof.Machine

/-- The reset kinds POR, WDTn, RESn, RESh, WDTh, USBn, USBh (70_reset_and_hazards.md R600). -/
inductive ResetKind where
  | por
  | wdtRun
  | resRun
  | resHalt
  | wdtHalt
  | usbRun
  | usbHalt
deriving DecidableEq, Repr

/-- The kinds whose columns keep AWR, PIPE, STALL, SIES, MISC, USC, USR and SCC: WDTn and WDTh
(70_reset_and_hazards.md R610). -/
def ResetKind.isWdt : ResetKind → Bool
  | .wdtRun => true
  | .wdtHalt => true
  | _ => false

/-- The kinds made by a USB bus reset. -/
def ResetKind.isUsb : ResetKind → Bool
  | .usbRun => true
  | .usbHalt => true
  | _ => false

/-- Row STATUS of 70_reset_and_hazards.md R610 (R609); `d` is a free value for the `x` bits. -/
def resetFlags (k : ResetKind) (d : Byte) (f : Flags) : Flags :=
  match k with
  | .por =>
    { c := d.getLsbD 0, ac := d.getLsbD 1, z := d.getLsbD 2, ov := d.getLsbD 3, pdf := false, timeout := false }
  | .wdtRun => { f with timeout := true }
  | .resRun => f
  | .resHalt => { f with timeout := false, pdf := true }
  | .wdtHalt => { f with timeout := true, pdf := true }
  | .usbRun => f
  | .usbHalt => { f with timeout := false, pdf := true }

/-- Row INTC of 70_reset_and_hazards.md R610, and USBF set by the USB resets (R612). -/
def resetIntc (k : ResetKind) (i : Intc) : Intc :=
  match k with
  | .wdtHalt => i
  | _ => { emi := false, eui := false, eti := false, usbf := k.isUsb, tf := false }

/-- Rows TMRH, TMRL, TMRC of 70_reset_and_hazards.md R610 and the timer rows of R611. -/
def resetTimer (k : ResetKind) (s : State) : Timer :=
  match k with
  | .wdtHalt => s.timer
  | .por =>
    { ctl := { te := true, ton := false, tm0 := false, tm1 := false }
      cnt := s.drawByte 0 ++ s.drawByte 1, pre := s.drawByte 2 ++ s.drawByte 3, buf := s.drawByte 4, pwRun := false }
  | _ => { s.timer with ctl := { te := true, ton := false, tm0 := false, tm1 := false }, pwRun := false }

/-- Row WDTS of 70_reset_and_hazards.md R610 and the watchdog row of R611. -/
def resetWdt (k : ResetKind) (w : Wdt) : Wdt :=
  match k with
  | .wdtHalt => { w with cnt := 0, pre := .none }
  | _ => { ws := 0b111#3, cnt := 0, pre := .none }

/-- Rows PA, PAC, PB, PBC of 70_reset_and_hazards.md R610. -/
def resetPorts (k : ResetKind) (p : Ports) : Ports :=
  match k with
  | .wdtHalt => p
  | _ => { p with pa := 0xFF#8, pac := 0xFF#8, pb := portBMask, pbc := portBMask }

/-- Row USC of 70_reset_and_hazards.md R610, and URST_FLAG set by the USB resets (R612). -/
def resetUsc (k : ResetKind) (c : Usc) : Usc :=
  if k.isWdt then c
  else if k.isUsb then
    { suspend := false, rmotWk := false, urstFlag := true, resumeO := false, ps2Dao := true, ps2Cko := true }
  else { suspend := false, rmotWk := false, urstFlag := false, resumeO := false, ps2Dao := true, ps2Cko := true }

/-- Row USR: `0100 0000`; `u1uu 0000` after a USB reset (70_reset_and_hazards.md R610). -/
def resetUsr (k : ResetKind) (v : Byte) : Byte :=
  if k.isWdt then v else if k.isUsb then (v &&& 0xB0#8) ||| 0x40#8 else 0x40#8

/-- Row SCC: `0000 0000`; `uu00 u000` after a USB reset (70_reset_and_hazards.md R610). -/
def resetScc (k : ResetKind) (v : Byte) : Byte :=
  if k.isWdt then v else if k.isUsb then v &&& 0xC8#8 else 0x00#8

/-- Rows FIFO0, FIFO1: unknown after POR (`len`, `f` give unknown contents), emptied by a USB reset, else kept
(70_reset_and_hazards.md R610, R611). The spec gives no reset value of the direction mark and of the host's use of the
pipe: DESIGN CHOICE, after POR and a USB reset the mark is the host's and the host does not use the pipe (log 21). -/
def resetFifo (k : ResetKind) (len : Byte) (f : Nat → Byte) (q : Fifo) : Fifo :=
  match k with
  | .por => { bytes := (List.range (len.toNat % 9)).map f, mark := .fromHost, busy := false }
  | .usbRun => { bytes := [], mark := .fromHost, busy := false }
  | .usbHalt => { bytes := [], mark := .fromHost, busy := false }
  | _ => q

/-- The USB rows of 70_reset_and_hazards.md R610 and Pipe_ctrl's of R611. -/
def resetUsb (k : ResetKind) (s : State) : Usb :=
  let u := s.usb
  { usc := resetUsc k u.usc
    usr := resetUsr k u.usr
    scc := resetScc k u.scc
    pipeCtrl := if k.isWdt then u.pipeCtrl else 0x03#8
    awr := if k.isWdt then u.awr else 0x00#8
    stall := if k.isWdt then u.stall else 0x00#8
    pipe := if k.isWdt then u.pipe else 0x00#8
    sies := if k.isWdt then u.sies else 0x00#8
    misc := if k.isWdt then u.misc else Misc.ofByte 0x00#8
    fifo0 := resetFifo k (s.drawByte 5) (fun j => s.drawByte (16 + j)) u.fifo0
    fifo1 := resetFifo k (s.drawByte 6) (fun j => s.drawByte (24 + j)) u.fifo1
    devAddr := if k.isWdt then u.devAddr else 0x00#7 }

/-- The general purpose RAM with the byte `f a` at every address `a` of 20H to 7FH. -/
def filledRam (f : Nat → Byte) : Memory :=
  (List.range 96).foldr (fun j rest => Memory.consCell (0x20 + j) (f (0x20 + j)) rest) []

/-- Row RAM of 70_reset_and_hazards.md R611 (`RAM_AFTER_RESET`). -/
def resetRam (k : ResetKind) (s : State) : Memory :=
  match k with
  | .wdtHalt => s.ram
  | .por => filledRam fun a => s.drawByte (128 + a)
  | _ =>
    match s.config.ramAfterReset with
    | .survives => s.ram
    | .unknown => filledRam fun a => s.drawByte (128 + a)

/-- Row BP of 70_reset_and_hazards.md R611 (`BP_RESET`). -/
def resetBp (k : ResetKind) (s : State) : Bool :=
  match k with
  | .wdtHalt => s.bp
  | .por => (s.drawByte 7).getLsbD 0
  | _ => s.config.bpReset.getD ((s.drawByte 7).getLsbD 0)

/-- Row TBHP of 70_reset_and_hazards.md R611 (`TBHP_RESET`). -/
def resetTbhp (k : ResetKind) (s : State) : BitVec 3 :=
  match k with
  | .wdtHalt => s.tbhp
  | .por => (s.drawByte 8).extractLsb' 0 3
  | _ => s.config.tbhpReset.getD ((s.drawByte 8).extractLsb' 0 3)

/-- A register that is unknown after POR and unchanged after every other reset. -/
def unknownAtPor {α : Type} (k : ResetKind) (drawn kept : α) : α :=
  match k with
  | .por => drawn
  | _ => kept

/-- How many free values a reset of each kind draws. -/
def resetDraws : ResetKind → Nat
  | .wdtHalt => 0
  | _ => 256

/-- Row USC, bits 5 and 4: they are no storage but show the pads CLK and DATA, so where the column has the digit 0,
after a USB reset, the reset leaves both lines low until the environment sets them again; elsewhere the column is `x`
(70_reset_and_hazards.md R610, R612, log 18). -/
def resetEnv (k : ResetKind) (e : Env) : Env :=
  if k.isUsb then { e with pads := { e.pads with data := false, clk := false } } else e

/-- `reset(kind)` (70_reset_and_hazards.md R612). Program memory, CONFIG and the environment's moves are not touched.
The 1024 t_SYS of the start-up delay (R607) let the 2 µs waits pass (log 22). -/
def applyReset (k : ResetKind) (s : State) : State where
  acc := unknownAtPor k (s.drawByte 9) s.acc
  pc := 0x000#11
  flags := resetFlags k (s.drawByte 10) s.flags
  stk := []
  mp0 := unknownAtPor k ((s.drawByte 11).extractLsb' 0 7) s.mp0
  mp1 := unknownAtPor k ((s.drawByte 12).extractLsb' 0 7) s.mp1
  bp := resetBp k s
  tblp := unknownAtPor k (s.drawByte 13) s.tblp
  tblh := unknownAtPor k ((s.drawByte 14).extractLsb' 0 7) s.tblh
  tbhp := resetTbhp k s
  intc := resetIntc k s.intc
  ram := resetRam k s
  rom := s.rom
  timer := resetTimer k s
  wdt := resetWdt k s.wdt
  ports := resetPorts k s.ports
  usb := resetUsb k s
  halt := { s.halt with halted := false }
  config := s.config
  env := resetEnv k s.env
  irqAge := { usb := 0, timer := 0 }
  gap := Gap.none
  cyc := s.cyc
  draws := s.draws + resetDraws k

end Sys2Proof.Machine
end

