-- ==== Sys2Proof/Machine/Agents.lean ====
section
/-! DEFINITION. What happens at an instruction boundary before an instruction executes: steps 1 to 4 of
70_reset_and_hazards.md R645, with the environment's moves of R646. -/

namespace Sys2Proof.Machine

/-- What one move of the environment does: it changes the state, or it is a reset (70_reset_and_hazards.md R645). -/
inductive MoveEffect where
  | goesOn (s : State)
  | resets (k : ResetKind)
deriving DecidableEq, Repr

/-- The reset kind for the run state (70_reset_and_hazards.md R600). -/
def State.kindNow (s : State) (running halted : ResetKind) : ResetKind :=
  if s.halt.halted then halted else running

/-- SCLKSEL is 1 for a 6 MHz crystal and 0 for a 12 MHz one: it "must match the crystal fitted for the USB SIE to work"
(62_ports_usb_ps2.md R520). -/
def State.sclkMatches (s : State) : Bool := s.usb.scc.getLsbD 6 == (s.config.fSys == .mhz6)

/-- A USB event other than suspend, resume and reset reaches the machine only while the USB interface is selected, its
clock is on, SCLKSEL matches the crystal and the machine runs (62_ports_usb_ps2.md R518, R520; 60_exceptions.md R430,
R434; log 19). -/
def State.usbHears (s : State) : Bool :=
  s.usb.usbSelected && s.usb.scc.getLsbD 3 && s.sclkMatches && !s.halt.halted

/-- `usb_suspend` needs the interface selected and the machine running, not the USB clock (log 19). -/
def State.usbHearsSuspend (s : State) : Bool := s.usb.usbSelected && !s.halt.halted

/-- One move of the environment (70_reset_and_hazards.md R646). An event that the machine cannot hear changes nothing.
-/
def applyMove (m : EnvMove) (s : State) : MoveEffect :=
  match m with
  | .powerOn => .resets .por
  | .resLow => .resets (s.kindNow .resRun .resHalt)
  | .lowVoltage => if s.config.lvrEnable then .resets (s.kindNow .resRun .resHalt) else .goesOn s
  | .wdtTick => .goesOn (if s.config.wdtSrc = .rc then s.wdtTicks 1 else s)
  | .usbReset => if s.usb.usbSelected then .resets (s.kindNow .usbRun .usbHalt) else .goesOn s
  | .usbSuspend => .goesOn (if s.usbHearsSuspend then s.usbSuspend else s)
  | .usbResumeStart => .goesOn (if s.usb.usbSelected then s.usbResumeStart else s)
  | .usbResumeEnd => .goesOn (if s.usb.usbSelected then s.usbResumeEnd else s)
  | .usbAccess k p => .goesOn (if s.usbHears then s.usbAccess k p else s)
  | .usbBusy k b => .goesOn (if s.usbHears then s.setUsb (s.usb.setBusy k b) else s)
  | .crcError => .goesOn (if s.usbHears then s.setUsb { s.usb with sies := setBitTo s.usb.sies 5#3 true } else s)
  | .fifo0Error => .goesOn (if s.usbHears then s.setUsb { s.usb with sies := setBitTo s.usb.sies 1#3 true } else s)
  | .siesBus i n e => .goesOn (if s.usbHears then s.setUsb (s.usb.setSiesBus i n e) else s)

/-- What a boundary comes to: the step ends here, or an instruction is to execute. -/
inductive Boundary where
  | ends (s : State)
  | execute (s : State)
deriving DecidableEq, Repr

/-- The state whose environment still has the moves `ms` to make at the next boundary. -/
def State.keepMoves (s : State) (ms : List EnvMove) : State :=
  match ms with
  | [] => s
  | _ => { s with env := { s.env with inputs := { pads := s.env.pads, moves := ms } :: s.env.inputs } }

/-- The environment's moves in order; a reset ends the step and leaves the moves after it for the next boundary
(70_reset_and_hazards.md R645 step 1, log 30). -/
def runMoves : List EnvMove → State → Boundary
  | [], s => .execute s
  | m :: ms, s =>
    match applyMove m s with
    | .goesOn t => runMoves ms t
    | .resets k => .ends ((applyReset k s).keepMoves ms)

/-- The pad levels of this boundary, then the environment's moves. With nothing listed the levels stay and no move
comes. -/
def listedMoves (s : State) : Boundary :=
  match s.env.inputs with
  | [] => .execute (samplePads s.env.pads s)
  | input :: rest => runMoves input.moves (samplePads input.pads { s with env := { s.env with inputs := rest } })

/-- SUSPEND2 is set with the LVR enabled: the chip "will be reset" (62_ports_usb_ps2.md R515). -/
def State.suspend2Resets (s : State) : Bool := s.config.lvrEnable && s.usb.scc.getLsbD 4

/-- Step 1 of 70_reset_and_hazards.md R645: the environment's moves; then the reset that SUSPEND2 brings with the LVR
enabled, of the LVR's kind, RESn or RESh (62_ports_usb_ps2.md R515, 70_reset_and_hazards.md R600; that it comes at the
next boundary and before the watchdog's is a DESIGN CHOICE, log 31). -/
def environmentMoves (s : State) : Boundary :=
  match listedMoves s with
  | .ends t => .ends t
  | .execute t => if t.suspend2Resets then .ends (applyReset (t.kindNow .resRun .resHalt) t) else .execute t

/-- A wake event has come: a selected port edge, or a request flag that rose since HALT (60_exceptions.md R431, R433 to
R435). -/
def State.wakes (s : State) : Bool :=
  s.halt.edge || (s.intc.usbf && !s.halt.usbf) || (s.intc.tf && !s.halt.tf)

/-- The halted state left; 1024 t_SYS have passed (60_exceptions.md R436), so the 2 µs waits have too (log 22). -/
def State.wake (s : State) : State :=
  if s.halt.halted then (s.setHalt { s.halt with halted := false }).setGap Gap.none else s

/-- One more boundary at which each request flag is seen (`IRQ_LATENCY` of 00_scope.md R17, log 29). -/
def State.ageRequests (s : State) : State :=
  { s with
    irqAge :=
      { usb := if s.intc.usbf then s.irqAge.usb + 1 else 0
        timer := if s.intc.tf then s.irqAge.timer + 1 else 0 } }

/-- Steps 3 and 4 of 70_reset_and_hazards.md R645: stutter while halted without a wake event, else wake, then enter an
acknowledged interrupt, else execute. Whether a stuttered boundary counts toward `IRQ_LATENCY` is not stated
(00_scope.md R17): DESIGN CHOICE, it does not, so a request flag that was 1 before HALT does not age while the machine
is halted (log 29). -/
def wakeAndAcknowledge (s : State) : Boundary :=
  if s.halt.halted && !s.wakes then .ends s
  else
    let t := s.wake.ageRequests
    match t.acknowledged with
    | some src => .ends (enterInterrupt src t)
    | none => .execute t

/-- Steps 2 to 4 of 70_reset_and_hazards.md R645: the watchdog's time-out first (61_timers_wdt.md R473). A watchdog on
the instruction clock that HALT's own cycle brings to its limit makes the warm reset WDTh at the next boundary, though
70_reset_and_hazards.md R627 says that such a watchdog cannot end HALT: DESIGN CHOICE, HALT's cycle is counted by step
6 of R645 and the time-out taken by step 2 (log 28). -/
def afterMoves (s : State) : Boundary :=
  if s.wdtTimedOut then .ends (applyReset (s.kindNow .wdtRun .wdtHalt) s) else wakeAndAcknowledge s

/-- Steps 1 to 4 of 70_reset_and_hazards.md R645. -/
def boundary (s : State) : Boundary :=
  match environmentMoves s with
  | .ends t => .ends t
  | .execute t => afterMoves t

end Sys2Proof.Machine
end

