-- ==== Sys2Proof/Machine/Operands.lean ====
section
/-! DEFINITION. Every operand form: effective address resolution (20_memory.md R105, R106), the read and the write of
one data memory location with the register's side effects (R107, R108), the read-modify-write form (R109), and the
shapes that the instruction families share. -/

namespace Sys2Proof.Machine

/-- A resolved data memory location (20_memory.md R103, R106; 10_state.md R31, R49). -/
inductive Loc where
  /-- The unimplemented location of an indirect access to 00H or 02H. -/
  | null
  /-- General purpose RAM. -/
  | ram (a : DataAddr)
  | mp0
  | mp1
  | bp
  | acc
  | pcl
  | tblp
  | tblh
  | wdts
  | status
  | intc
  | tmrh
  | tmrl
  | tmrc
  | pa
  | pac
  | pb
  | pbc
  | usc
  | usr
  | scc
  | tbhp
  /-- 0CH to 0EH, 16H to 19H, 1DH, 1EH (10_state.md R48). -/
  | reserved
  | pipeCtrl
  | awr
  | stall
  | pipe
  | sies
  | misc
  | fifo (k : Endpoint)
  /-- An unimplemented bank 1 address (10_state.md R49, K9). -/
  | unmapped
deriving DecidableEq, Repr

/-- The bank 0 map (10_state.md R31). -/
def bank0 (a : DataAddr) : Loc :=
  match a.toNat with
  | 0x00 => .null
  | 0x01 => .mp0
  | 0x02 => .null
  | 0x03 => .mp1
  | 0x04 => .bp
  | 0x05 => .acc
  | 0x06 => .pcl
  | 0x07 => .tblp
  | 0x08 => .tblh
  | 0x09 => .wdts
  | 0x0A => .status
  | 0x0B => .intc
  | 0x0F => .tmrh
  | 0x10 => .tmrl
  | 0x11 => .tmrc
  | 0x12 => .pa
  | 0x13 => .pac
  | 0x14 => .pb
  | 0x15 => .pbc
  | 0x1A => .usc
  | 0x1B => .usr
  | 0x1C => .scc
  | 0x1F => .tbhp
  | n => if n < 0x20 then .reserved else .ram a

/-- The bank 1 map above 1FH (10_state.md R49). -/
def bank1 (a : DataAddr) : Loc :=
  match a.toNat with
  | 0x41 => .pipeCtrl
  | 0x42 => .awr
  | 0x43 => .stall
  | 0x44 => .pipe
  | 0x45 => .sies
  | 0x46 => .misc
  | 0x48 => .fifo .ep0
  | 0x49 => .fifo .ep1
  | _ => .unmapped

/-- `EA(m)` (20_memory.md R106). `bank0` gives the unimplemented location for 00H and 02H, so indirection never
chains (D20). -/
def ea (m : DataAddr) (s : State) : Loc :=
  if m = 0x00#7 then bank0 s.mp0
  else if m = 0x02#7 then
    if s.mp1.toNat < 0x20 then bank0 s.mp1 else if s.bp then bank1 s.mp1 else bank0 s.mp1
  else bank0 m

/-- `MemRead(ea, 1)` (20_memory.md R107): the byte and the state with the register's read side effect. The unimplemented
bank 1 addresses are refused before any read (`withLoc`). -/
def memRead (l : Loc) (s : State) : Byte × State :=
  match l with
  | .null => (0x00#8, s)
  | .ram a => (s.ram.read a.toNat, s)
  | .mp0 => ((1#1 ++ s.mp0 : BitVec (1 + 7)), s)
  | .mp1 => ((1#1 ++ s.mp1 : BitVec (1 + 7)), s)
  | .bp => ((0#7 ++ BitVec.ofBool s.bp : BitVec (7 + 1)), s)
  | .acc => (s.acc, s)
  | .pcl => (s.pc.extractLsb' 0 8, s)
  | .tblp => (s.tblp, s)
  | .tblh => ((0#1 ++ s.tblh : BitVec (1 + 7)), s)
  | .wdts => ((0b10000#5 ++ s.wdt.ws : BitVec (5 + 3)), s)
  | .status => (s.flags.toByte, s)
  | .intc => (s.intc.toByte, s)
  | .tmrh => (s.timer.high, s.setTimer s.timer.latchLow)
  | .tmrl => (s.timer.buf, s)
  | .tmrc => (s.timer.ctl.toByte, s)
  | .pa => (portRead s.ports.pac s.env.pads.pa s.ports.pa, s)
  | .pac => (s.ports.pac, s)
  | .pb => (withReservedB (portRead s.ports.pbc s.env.pads.pb s.ports.pb) (s.drawByte 0), s.addDraws 1)
  | .pbc => (withReservedB s.ports.pbc (s.drawByte 0), s.addDraws 1)
  | .usc => (s.usb.readUsc s.env.pads (s.drawByte 0), s.addDraws 1)
  | .usr => (s.usb.usr, s)
  | .scc => (s.usb.scc, s)
  | .tbhp => ((0#5 ++ s.tbhp : BitVec (5 + 3)), s)
  | .reserved => (0x00#8, s)
  | .pipeCtrl => (s.usb.pipeCtrl, s)
  | .awr => (s.usb.awr, s)
  | .stall => (s.usb.stall, s)
  | .pipe => (s.usb.pipe, s)
  | .sies => (s.usb.sies, s)
  | .misc => s.readMisc
  | .fifo k => s.readFifo k
  | .unmapped => (s.drawByte 0, s.addDraws 1)

/-- The effect of `MemWrite(ea, 1, v)` where the spec gives one (20_memory.md R108). -/
def storeLoc (l : Loc) (v : Byte) (s : State) : State :=
  match l with
  | .null => s
  | .ram a => { s with ram := s.ram.write a.toNat v }
  | .mp0 => { s with mp0 := v.extractLsb' 0 7 }
  | .mp1 => { s with mp1 := v.extractLsb' 0 7 }
  | .bp => { s with bp := v.getLsbD 0 }
  | .acc => s.setAcc v
  | .pcl => (s.setPc (s.pc.extractLsb' 8 3 ++ v : BitVec (3 + 8))).addCycles 1
  | .tblp => { s with tblp := v }
  | .tblh => s
  | .wdts => s.setWdt { s.wdt with ws := v.extractLsb' 0 3 }
  | .status => s.setFlags (s.flags.write v)
  | .intc => s.setIntc (Intc.ofByte v)
  | .tmrh => s.setTimer (s.timer.writeHigh v)
  | .tmrl => s.setTimer (s.timer.writeLow v)
  | .tmrc => s.setTimer (s.timer.writeCtl v)
  | .pa => s.setPorts { s.ports with pa := v }
  | .pac => s.setPorts { s.ports with pac := v }
  | .pb => s.setPorts { s.ports with pb := v &&& portBMask }
  | .pbc => s.setPorts { s.ports with pbc := v &&& portBMask }
  | .usc => s.setUsb { s.usb with usc := s.usb.usc.write v }
  | .usr => s.setUsb (s.usb.writeUsr v)
  | .scc => s.setUsb { s.usb with scc := v }
  | .tbhp => { s with tbhp := v.extractLsb' 0 3 }
  | .reserved => s
  | .pipeCtrl => s.setUsb { s.usb with pipeCtrl := v }
  | .awr => s.setUsb (s.usb.writeAwr v)
  | .stall => s.setUsb { s.usb with stall := v }
  | .pipe => s
  | .sies => s.setUsb (s.usb.writeSies v)
  | .misc => s.writeMisc v
  | .fifo k => s.writeFifo k v
  | .unmapped => s

/-- Whether the spec gives a write of `v` to the location an effect: not to an unimplemented bank 1 address (K9), and to
WDTS only with bits 7 to 3 at 10000 (10_state.md R38, K7). -/
def Loc.accepts (l : Loc) (v : Byte) : Bool :=
  match l with
  | .unmapped => false
  | .wdts => v.extractLsb' 3 5 == 0b10000#5
  | _ => true

/-- `MemWrite(ea, 1, v)` (20_memory.md R108), refused where the spec refuses. -/
def memWrite (l : Loc) (v : Byte) (s : State) : Out :=
  if l.accepts v then .next (storeLoc l v s)
  else if l = .unmapped then .refused .bank1Unimplemented
  else .refused .wdtsReserved

/-- Resolve the operand `m` once, before anything is read (20_memory.md R106), and refuse an unimplemented bank 1
address (K9). -/
def withLoc (m : DataAddr) (s : State) (k : Loc → Out) : Out :=
  if ea m s = .unmapped then .refused .bank1Unimplemented else k (ea m s)

/-- The accumulator and the flags take a result; one cycle. -/
def State.toAcc (s : State) (r : Byte × Flags) : State := ((s.setAcc r.1).setFlags r.2).addCycles 1

/-- The form `OP A,[m]`: read `[m]`, the result goes to ACC. -/
def accForm (m : DataAddr) (s : State) (f : State → Byte → Byte × Flags) : Out :=
  withLoc m s fun l =>
    let p := memRead l s
    .next (p.2.toAcc (f p.2 p.1))

/-- The form `OP A,x`: the operand is in the instruction word. -/
def immForm (x : Byte) (s : State) (f : State → Byte → Byte × Flags) : Out := .next (s.toAcc (f s x))

/-- The read-modify-write form whose instruction sets flags (20_memory.md R109); STATUS as its destination is refused
(40_arithmetic.md R213, 41_logic.md R220, 42_incdec_rotate.md R244, R253). -/
def modifyFlagForm (m : DataAddr) (s : State) (f : State → Byte → Byte × Flags) : Out :=
  withLoc m s fun l =>
    if l = .status then .refused .statusDestination
    else
      let p := memRead l s
      let r := f p.2 p.1
      memWrite l r.1 ((p.2.setFlags r.2).addCycles 1)

/-- The read-modify-write form whose instruction sets no flag (20_memory.md R109). -/
def modifyForm (m : DataAddr) (s : State) (f : Byte → Byte) : Out :=
  withLoc m s fun l =>
    let p := memRead l s
    memWrite l (f p.1) (p.2.addCycles 1)

/-- The pure write: `[m] <- v`, the operand is not read (45_table_misc.md R311). -/
def storeForm (m : DataAddr) (s : State) (v : Byte) : Out := withLoc m s fun l => memWrite l v (s.addCycles 1)

/-- The skips that only test: read `[m]`, skip if `test` holds of it (44_branch.md R273, R275, R276). -/
def testSkipForm (m : DataAddr) (s : State) (test : Byte → Bool) : Out :=
  withLoc m s fun l =>
    let p := memRead l s
    .next ((p.2.addCycles 1).skipIf (test p.1))

/-- The skips that put a value into ACC: `f [m]` goes to ACC, skip if it is zero (44_branch.md R274, R279, R280). -/
def accSkipForm (m : DataAddr) (s : State) (f : Byte → Byte) : Out :=
  withLoc m s fun l =>
    let p := memRead l s
    .next (((p.2.setAcc (f p.1)).addCycles 1).skipIf (f p.1 == 0x00#8))

/-- SIZ and SDZ: `f [m]` goes back to `[m]`, skip if it is zero; PCL as destination is refused (44_branch.md R277,
R278). -/
def modifySkipForm (m : DataAddr) (s : State) (f : Byte → Byte) : Out :=
  withLoc m s fun l =>
    if l = .pcl then .refused .skipToPcl
    else
      let p := memRead l s
      memWrite l (f p.1) ((p.2.addCycles 1).skipIf (f p.1 == 0x00#8))

/-- `tableRead(a, m)`: the word's upper six bits to TBLH, its low byte to `[m]`; two cycles (45_table_misc.md R300). -/
def tableRead (a : ProgAddr) (m : DataAddr) (s : State) : Out :=
  withLoc m s fun l =>
    let w := s.romWord a
    memWrite l (w.extractLsb' 0 8) ({ s with tblh := (0#1 ++ w.extractLsb' 8 6 : BitVec (1 + 6)) }.addCycles 2)

end Sys2Proof.Machine
end

