-- ==== Sys2Proof/Machine/Arith.lean ====
section
/-! DEFINITION. The arithmetic instructions (40_arithmetic.md). Flags C, AC, Z, OV; DAA only C. -/

namespace Sys2Proof.Machine

/-- ADD A,[m] (40_arithmetic.md R201) -/
def execAddAM (m : DataAddr) (s : State) : Out :=
  accForm m s fun t v => add8 t.flags t.acc v false

/-- ADDM A,[m] (40_arithmetic.md R202) -/
def execAddmAM (m : DataAddr) (s : State) : Out :=
  modifyFlagForm m s fun t v => add8 t.flags t.acc v false

/-- ADD A,x (40_arithmetic.md R203) -/
def execAddAx (x : Byte) (s : State) : Out :=
  immForm x s fun t v => add8 t.flags t.acc v false

/-- ADC A,[m] (40_arithmetic.md R204) -/
def execAdcAM (m : DataAddr) (s : State) : Out :=
  accForm m s fun t v => add8 t.flags t.acc v t.flags.c

/-- ADCM A,[m] (40_arithmetic.md R205) -/
def execAdcmAM (m : DataAddr) (s : State) : Out :=
  modifyFlagForm m s fun t v => add8 t.flags t.acc v t.flags.c

/-- SUB A,x (40_arithmetic.md R206) -/
def execSubAx (x : Byte) (s : State) : Out :=
  immForm x s fun t v => sub8 t.flags t.acc v

/-- SUB A,[m] (40_arithmetic.md R207) -/
def execSubAM (m : DataAddr) (s : State) : Out :=
  accForm m s fun t v => sub8 t.flags t.acc v

/-- SUBM A,[m] (40_arithmetic.md R208) -/
def execSubmAM (m : DataAddr) (s : State) : Out :=
  modifyFlagForm m s fun t v => sub8 t.flags t.acc v

/-- SBC A,[m] (40_arithmetic.md R209) -/
def execSbcAM (m : DataAddr) (s : State) : Out :=
  accForm m s fun t v => sbc8 t.flags t.acc v

/-- SBCM A,[m] (40_arithmetic.md R210) -/
def execSbcmAM (m : DataAddr) (s : State) : Out :=
  modifyFlagForm m s fun t v => sbc8 t.flags t.acc v

/-- DAA [m]: the source is ACC, `[m]` the destination (40_arithmetic.md R211); as a read-modify-write instruction of
20_memory.md R109 it performs the read of `[m]` with its side effects (log 17). -/
def execDaaM (m : DataAddr) (s : State) : Out :=
  modifyFlagForm m s fun t _ => decimalAdjust t.flags t.acc

end Sys2Proof.Machine
end

