-- ==== Sys2Proof/Machine/Branch.lean ====
section
/-! DEFINITION. The jump, skip, call and return instructions (44_branch.md). No flag of STATUS changes (R270). -/

namespace Sys2Proof.Machine

/-- JMP addr (44_branch.md R272) -/
def execJmp (addr : ProgAddr) (s : State) : Out :=
  .next ((s.setPc addr).addCycles 2)

/-- SZ [m] (44_branch.md R273) -/
def execSzM (m : DataAddr) (s : State) : Out :=
  testSkipForm m s fun v => v == 0x00#8

/-- SZA [m] (44_branch.md R274) -/
def execSzaM (m : DataAddr) (s : State) : Out :=
  accSkipForm m s fun v => v

/-- SZ [m].i (44_branch.md R275) -/
def execSzBit (m : DataAddr) (i : BitVec 3) (s : State) : Out :=
  testSkipForm m s fun v => !v.getLsbD i.toNat

/-- SNZ [m].i (44_branch.md R276) -/
def execSnzBit (m : DataAddr) (i : BitVec 3) (s : State) : Out :=
  testSkipForm m s fun v => v.getLsbD i.toNat

/-- SIZ [m] (44_branch.md R277) -/
def execSizM (m : DataAddr) (s : State) : Out :=
  modifySkipForm m s fun v => v + 1#8

/-- SDZ [m] (44_branch.md R278) -/
def execSdzM (m : DataAddr) (s : State) : Out :=
  modifySkipForm m s fun v => v - 1#8

/-- SIZA [m] (44_branch.md R279) -/
def execSizaM (m : DataAddr) (s : State) : Out :=
  accSkipForm m s fun v => v + 1#8

/-- SDZA [m] (44_branch.md R280) -/
def execSdzaM (m : DataAddr) (s : State) : Out :=
  accSkipForm m s fun v => v - 1#8

/-- CALL addr: PC is already the address of the next instruction (44_branch.md R281) -/
def execCall (addr : ProgAddr) (s : State) : Out :=
  .next (((s.push s.pc).setPc addr).addCycles 2)

/-- RET (44_branch.md R282) -/
def execRet (s : State) : Out :=
  returnWith s fun t => t

/-- RET A,x (44_branch.md R283) -/
def execRetAx (x : Byte) (s : State) : Out :=
  returnWith s fun t => t.setAcc x

/-- RETI (44_branch.md R284) -/
def execReti (s : State) : Out :=
  returnFromInterrupt s

end Sys2Proof.Machine
end

