-- ==== Sys2Proof/Machine/IncDecRotate.lean ====
section
/-! DEFINITION. The increment, decrement and rotate instructions (42_incdec_rotate.md). -/

namespace Sys2Proof.Machine

/-- INCA [m] (42_incdec_rotate.md R240, R244) -/
def execIncaM (m : DataAddr) (s : State) : Out :=
  accForm m s fun t v => zeroOnly t.flags (v + 1#8)

/-- INC [m] (42_incdec_rotate.md R241, R244) -/
def execIncM (m : DataAddr) (s : State) : Out :=
  modifyFlagForm m s fun t v => zeroOnly t.flags (v + 1#8)

/-- DECA [m] (42_incdec_rotate.md R242, R244) -/
def execDecaM (m : DataAddr) (s : State) : Out :=
  accForm m s fun t v => zeroOnly t.flags (v - 1#8)

/-- DEC [m] (42_incdec_rotate.md R243, R244) -/
def execDecM (m : DataAddr) (s : State) : Out :=
  modifyFlagForm m s fun t v => zeroOnly t.flags (v - 1#8)

/-- RRA [m] (42_incdec_rotate.md R245, R253) -/
def execRraM (m : DataAddr) (s : State) : Out :=
  accForm m s fun t v => (rotateRight v, t.flags)

/-- RR [m] (42_incdec_rotate.md R246, R253) -/
def execRrM (m : DataAddr) (s : State) : Out :=
  modifyForm m s rotateRight

/-- RLA [m] (42_incdec_rotate.md R249, R253) -/
def execRlaM (m : DataAddr) (s : State) : Out :=
  accForm m s fun t v => (rotateLeft v, t.flags)

/-- RL [m] (42_incdec_rotate.md R250, R253) -/
def execRlM (m : DataAddr) (s : State) : Out :=
  modifyForm m s rotateLeft

/-- RRCA [m] (42_incdec_rotate.md R247, R253) -/
def execRrcaM (m : DataAddr) (s : State) : Out :=
  accForm m s fun t v => rotateRightCarry t.flags v

/-- RRC [m] (42_incdec_rotate.md R248, R253) -/
def execRrcM (m : DataAddr) (s : State) : Out :=
  modifyFlagForm m s fun t v => rotateRightCarry t.flags v

/-- RLCA [m] (42_incdec_rotate.md R251, R253) -/
def execRlcaM (m : DataAddr) (s : State) : Out :=
  accForm m s fun t v => rotateLeftCarry t.flags v

/-- RLC [m] (42_incdec_rotate.md R252, R253) -/
def execRlcM (m : DataAddr) (s : State) : Out :=
  modifyFlagForm m s fun t v => rotateLeftCarry t.flags v

end Sys2Proof.Machine
end

