-- ==== Sys2Proof/Machine/Logic.lean ====
section
/-! DEFINITION. The logic instructions (41_logic.md). Flag Z only (R220). -/

namespace Sys2Proof.Machine

/-- AND A,[m] (41_logic.md R221) -/
def execAndAM (m : DataAddr) (s : State) : Out :=
  accForm m s fun t v => zeroOnly t.flags (t.acc &&& v)

/-- ANDM A,[m] (41_logic.md R224) -/
def execAndmAM (m : DataAddr) (s : State) : Out :=
  modifyFlagForm m s fun t v => zeroOnly t.flags (t.acc &&& v)

/-- AND A,x (41_logic.md R227) -/
def execAndAx (x : Byte) (s : State) : Out :=
  immForm x s fun t v => zeroOnly t.flags (t.acc &&& v)

/-- OR A,[m] (41_logic.md R222) -/
def execOrAM (m : DataAddr) (s : State) : Out :=
  accForm m s fun t v => zeroOnly t.flags (t.acc ||| v)

/-- ORM A,[m] (41_logic.md R225) -/
def execOrmAM (m : DataAddr) (s : State) : Out :=
  modifyFlagForm m s fun t v => zeroOnly t.flags (t.acc ||| v)

/-- OR A,x (41_logic.md R228) -/
def execOrAx (x : Byte) (s : State) : Out :=
  immForm x s fun t v => zeroOnly t.flags (t.acc ||| v)

/-- XOR A,[m] (41_logic.md R223) -/
def execXorAM (m : DataAddr) (s : State) : Out :=
  accForm m s fun t v => zeroOnly t.flags (t.acc ^^^ v)

/-- XORM A,[m] (41_logic.md R226) -/
def execXormAM (m : DataAddr) (s : State) : Out :=
  modifyFlagForm m s fun t v => zeroOnly t.flags (t.acc ^^^ v)

/-- XOR A,x (41_logic.md R229) -/
def execXorAx (x : Byte) (s : State) : Out :=
  immForm x s fun t v => zeroOnly t.flags (t.acc ^^^ v)

/-- CPL [m] (41_logic.md R230) -/
def execCplM (m : DataAddr) (s : State) : Out :=
  modifyFlagForm m s fun t v => zeroOnly t.flags (~~~v)

/-- CPLA [m] (41_logic.md R231) -/
def execCplaM (m : DataAddr) (s : State) : Out :=
  accForm m s fun t v => zeroOnly t.flags (~~~v)

end Sys2Proof.Machine
end

