-- ==== Sys2Proof/Machine/MoveBit.lean ====
section
/-! DEFINITION. The data move and bit instructions (43_move_bit.md). No flag changes (R265). -/

namespace Sys2Proof.Machine

/-- MOV A,[m] (43_move_bit.md R260) -/
def execMovAM (m : DataAddr) (s : State) : Out :=
  accForm m s fun t v => (v, t.flags)

/-- MOV [m],A (43_move_bit.md R261) -/
def execMovMA (m : DataAddr) (s : State) : Out :=
  storeForm m s s.acc

/-- MOV A,x (43_move_bit.md R262) -/
def execMovAx (x : Byte) (s : State) : Out :=
  immForm x s fun t v => (v, t.flags)

/-- CLR [m].i (43_move_bit.md R263) -/
def execClrBit (m : DataAddr) (i : BitVec 3) (s : State) : Out :=
  modifyForm m s fun v => v &&& ~~~bitMask i

/-- SET [m].i (43_move_bit.md R264) -/
def execSetBit (m : DataAddr) (i : BitVec 3) (s : State) : Out :=
  modifyForm m s fun v => v ||| bitMask i

end Sys2Proof.Machine
end

