-- ==== Sys2Proof/Machine/TableMisc.lean ====
section
/-! DEFINITION. The table read and miscellaneous instructions (45_table_misc.md). -/

namespace Sys2Proof.Machine

/-- The address TABRDC reads: TBHP or the incremented PC's page, and TBLP (45_table_misc.md R301). -/
def tabrdcAddr (s : State) : ProgAddr :=
  ((if s.config.tbhpEnable then s.tbhp else s.pc.extractLsb' 8 3) ++ s.tblp : BitVec (3 + 8))

/-- The address TABRDL reads, in the last page (45_table_misc.md R302). -/
def tabrdlAddr (s : State) : ProgAddr := (0b111#3 ++ s.tblp : BitVec (3 + 8))

/-- TABRDC [m] (45_table_misc.md R303) -/
def execTabrdcM (m : DataAddr) (s : State) : Out :=
  tableRead (tabrdcAddr s) m s

/-- TABRDL [m] (45_table_misc.md R304) -/
def execTabrdlM (m : DataAddr) (s : State) : Out :=
  tableRead (tabrdlAddr s) m s

/-- NOP (45_table_misc.md R310) -/
def execNop (s : State) : Out :=
  .next (s.addCycles 1)

/-- CLR [m] (45_table_misc.md R311) -/
def execClrM (m : DataAddr) (s : State) : Out :=
  storeForm m s 0x00#8

/-- SET [m] (45_table_misc.md R312) -/
def execSetM (m : DataAddr) (s : State) : Out :=
  storeForm m s 0xFF#8

/-- CLR WDT: clears when CLRWDT_TIMES is 1, and is CLR WDT1 when it is 2 (45_table_misc.md R313, D25) -/
def execClrWdt (s : State) : Out :=
  .next ((s.preclearWdt .got1 .got2).addCycles 1)

/-- CLR WDT1 (45_table_misc.md R314) -/
def execClrWdt1 (s : State) : Out :=
  .next ((s.preclearWdt .got1 .got2).addCycles 1)

/-- CLR WDT2 (45_table_misc.md R315) -/
def execClrWdt2 (s : State) : Out :=
  .next ((s.preclearWdt .got2 .got1).addCycles 1)

/-- SWAP [m] (45_table_misc.md R316) -/
def execSwapM (m : DataAddr) (s : State) : Out :=
  modifyForm m s swapNibbles

/-- SWAPA [m] (45_table_misc.md R317) -/
def execSwapaM (m : DataAddr) (s : State) : Out :=
  accForm m s fun t v => (swapNibbles v, t.flags)

/-- The watchdog on entering HALT: cleared if its clock is the RC oscillator, else left (45_table_misc.md R318, D23). -/
def State.wdtOnHalt (s : State) : State := if s.config.wdtSrc = .rc then s.wdtClear else s

/-- HALT: PDF set, TO cleared, the machine halted; the request flags are noted for 60_exceptions.md R435 (log 28)
(45_table_misc.md R318). -/
def execHalt (s : State) : Out :=
  let t := s.wdtOnHalt.setFlags { s.flags with pdf := true, timeout := false }
  .next ((t.setHalt { halted := true, usbf := s.intc.usbf, tf := s.intc.tf, edge := false }).addCycles 1)

end Sys2Proof.Machine
end

