-- ==== Sys2Proof/Machine/Dispatch.lean ====
section
/-! DEFINITION. The meaning of every instruction, one arm for each constructor (30_encoding.md R146). The state given to
`exec` has PC already incremented past the instruction (10_state.md R22). -/

namespace Sys2Proof.Machine

def exec (i : Instr) (s : State) : Host.Outcome State Fault Refusal :=
  match i with
  | .nop => Sys2Proof.Machine.execNop s
  | .clrWdt => Sys2Proof.Machine.execClrWdt s
  | .clrWdt1 => Sys2Proof.Machine.execClrWdt1 s
  | .halt => Sys2Proof.Machine.execHalt s
  | .ret => Sys2Proof.Machine.execRet s
  | .reti => Sys2Proof.Machine.execReti s
  | .clrWdt2 => Sys2Proof.Machine.execClrWdt2 s
  | .movMA m => Sys2Proof.Machine.execMovMA m s
  | .cplaM m => Sys2Proof.Machine.execCplaM m s
  | .cplM m => Sys2Proof.Machine.execCplM m s
  | .subAM m => Sys2Proof.Machine.execSubAM m s
  | .submAM m => Sys2Proof.Machine.execSubmAM m s
  | .addAM m => Sys2Proof.Machine.execAddAM m s
  | .addmAM m => Sys2Proof.Machine.execAddmAM m s
  | .xorAM m => Sys2Proof.Machine.execXorAM m s
  | .xormAM m => Sys2Proof.Machine.execXormAM m s
  | .orAM m => Sys2Proof.Machine.execOrAM m s
  | .ormAM m => Sys2Proof.Machine.execOrmAM m s
  | .andAM m => Sys2Proof.Machine.execAndAM m s
  | .andmAM m => Sys2Proof.Machine.execAndmAM m s
  | .movAM m => Sys2Proof.Machine.execMovAM m s
  | .szaM m => Sys2Proof.Machine.execSzaM m s
  | .szM m => Sys2Proof.Machine.execSzM m s
  | .swapaM m => Sys2Proof.Machine.execSwapaM m s
  | .swapM m => Sys2Proof.Machine.execSwapM m s
  | .sbcAM m => Sys2Proof.Machine.execSbcAM m s
  | .sbcmAM m => Sys2Proof.Machine.execSbcmAM m s
  | .adcAM m => Sys2Proof.Machine.execAdcAM m s
  | .adcmAM m => Sys2Proof.Machine.execAdcmAM m s
  | .incaM m => Sys2Proof.Machine.execIncaM m s
  | .incM m => Sys2Proof.Machine.execIncM m s
  | .decaM m => Sys2Proof.Machine.execDecaM m s
  | .decM m => Sys2Proof.Machine.execDecM m s
  | .sizaM m => Sys2Proof.Machine.execSizaM m s
  | .sizM m => Sys2Proof.Machine.execSizM m s
  | .sdzaM m => Sys2Proof.Machine.execSdzaM m s
  | .sdzM m => Sys2Proof.Machine.execSdzM m s
  | .rlaM m => Sys2Proof.Machine.execRlaM m s
  | .rlM m => Sys2Proof.Machine.execRlM m s
  | .rraM m => Sys2Proof.Machine.execRraM m s
  | .rrM m => Sys2Proof.Machine.execRrM m s
  | .rlcaM m => Sys2Proof.Machine.execRlcaM m s
  | .rlcM m => Sys2Proof.Machine.execRlcM m s
  | .rrcaM m => Sys2Proof.Machine.execRrcaM m s
  | .rrcM m => Sys2Proof.Machine.execRrcM m s
  | .tabrdcM m => Sys2Proof.Machine.execTabrdcM m s
  | .tabrdlM m => Sys2Proof.Machine.execTabrdlM m s
  | .daaM m => Sys2Proof.Machine.execDaaM m s
  | .clrM m => Sys2Proof.Machine.execClrM m s
  | .setM m => Sys2Proof.Machine.execSetM m s
  | .retAx x => Sys2Proof.Machine.execRetAx x s
  | .subAx x => Sys2Proof.Machine.execSubAx x s
  | .addAx x => Sys2Proof.Machine.execAddAx x s
  | .xorAx x => Sys2Proof.Machine.execXorAx x s
  | .orAx x => Sys2Proof.Machine.execOrAx x s
  | .andAx x => Sys2Proof.Machine.execAndAx x s
  | .movAx x => Sys2Proof.Machine.execMovAx x s
  | .call addr => Sys2Proof.Machine.execCall addr s
  | .jmp addr => Sys2Proof.Machine.execJmp addr s
  | .setBit m b => Sys2Proof.Machine.execSetBit m b s
  | .clrBit m b => Sys2Proof.Machine.execClrBit m b s
  | .snzBit m b => Sys2Proof.Machine.execSnzBit m b s
  | .szBit m b => Sys2Proof.Machine.execSzBit m b s

end Sys2Proof.Machine
end

