-- ==== Sys2Proof/Machine/Step.lean ====
section
/-! DEFINITION. The step of the whole machine, from one instruction boundary to the next (70_reset_and_hazards.md
R645), and the placing of an instruction where the next step fetches it. -/

namespace Sys2Proof.Machine

/-- Steps 5 and 6 of 70_reset_and_hazards.md R645: fetch, execute, and let the agents count the cycles. -/
def runInstruction (s : State) : Out :=
  match fetch s with
  | .error r => .refused r
  | .ok (i, t) => andThen (exec i t) fun u => .next (countInstruction t u)

/-- One step (70_reset_and_hazards.md R645). -/
def step (s : State) : Host.Outcome State Fault Refusal :=
  match boundary s with
  | .ends t => .next t
  | .execute t => runInstruction t

/-- The state with the word `w` placed at PC in program memory. Every instruction is one word (30_encoding.md R140). -/
def State.withFetchWord (s : State) (_nbits w : Nat) : State := { s with rom := placeWord s.rom s.pc w }

end Sys2Proof.Machine
end

