-- ==== Sys2Proof/Safety.lean ====
section
/-! DEFINITION. What holds of the machine at every instruction boundary, and the terms the statements of
Certificates/Slice0/Obligations.lean use. -/

namespace Sys2Proof

/-- The data memory operand `m` (30_encoding.md R143). -/
def Instr.operand : Instr → Option DataAddr
  | .movMA m => some m
  | .cplaM m => some m
  | .cplM m => some m
  | .subAM m => some m
  | .submAM m => some m
  | .addAM m => some m
  | .addmAM m => some m
  | .xorAM m => some m
  | .xormAM m => some m
  | .orAM m => some m
  | .ormAM m => some m
  | .andAM m => some m
  | .andmAM m => some m
  | .movAM m => some m
  | .szaM m => some m
  | .szM m => some m
  | .swapaM m => some m
  | .swapM m => some m
  | .sbcAM m => some m
  | .sbcmAM m => some m
  | .adcAM m => some m
  | .adcmAM m => some m
  | .incaM m => some m
  | .incM m => some m
  | .decaM m => some m
  | .decM m => some m
  | .sizaM m => some m
  | .sizM m => some m
  | .sdzaM m => some m
  | .sdzM m => some m
  | .rlaM m => some m
  | .rlM m => some m
  | .rraM m => some m
  | .rrM m => some m
  | .rlcaM m => some m
  | .rlcM m => some m
  | .rrcaM m => some m
  | .rrcM m => some m
  | .tabrdcM m => some m
  | .tabrdlM m => some m
  | .daaM m => some m
  | .clrM m => some m
  | .setM m => some m
  | .setBit m _ => some m
  | .clrBit m _ => some m
  | .snzBit m _ => some m
  | .szBit m _ => some m
  | .nop => none
  | .clrWdt => none
  | .clrWdt1 => none
  | .halt => none
  | .ret => none
  | .reti => none
  | .clrWdt2 => none
  | .retAx _ => none
  | .subAx _ => none
  | .addAx _ => none
  | .xorAx _ => none
  | .orAx _ => none
  | .andAx _ => none
  | .movAx _ => none
  | .call _ => none
  | .jmp _ => none

/-- The operand `m` of the instructions whose destination is `[m]` (note (1) of 70_reset_and_hazards.md R641). -/
def Instr.dest : Instr → Option DataAddr
  | .movMA m => some m
  | .cplM m => some m
  | .submAM m => some m
  | .addmAM m => some m
  | .xormAM m => some m
  | .ormAM m => some m
  | .andmAM m => some m
  | .swapM m => some m
  | .sbcmAM m => some m
  | .adcmAM m => some m
  | .incM m => some m
  | .decM m => some m
  | .sizM m => some m
  | .sdzM m => some m
  | .rlM m => some m
  | .rrM m => some m
  | .rlcM m => some m
  | .rrcM m => some m
  | .tabrdcM m => some m
  | .tabrdlM m => some m
  | .daaM m => some m
  | .clrM m => some m
  | .setM m => some m
  | .setBit m _ => some m
  | .clrBit m _ => some m
  | .nop => none
  | .clrWdt => none
  | .clrWdt1 => none
  | .halt => none
  | .ret => none
  | .reti => none
  | .clrWdt2 => none
  | .cplaM _ => none
  | .subAM _ => none
  | .addAM _ => none
  | .xorAM _ => none
  | .orAM _ => none
  | .andAM _ => none
  | .movAM _ => none
  | .szaM _ => none
  | .szM _ => none
  | .swapaM _ => none
  | .sbcAM _ => none
  | .adcAM _ => none
  | .incaM _ => none
  | .decaM _ => none
  | .sizaM _ => none
  | .sdzaM _ => none
  | .rlaM _ => none
  | .rraM _ => none
  | .rlcaM _ => none
  | .rrcaM _ => none
  | .retAx _ => none
  | .subAx _ => none
  | .addAx _ => none
  | .xorAx _ => none
  | .orAx _ => none
  | .andAx _ => none
  | .movAx _ => none
  | .call _ => none
  | .jmp _ => none
  | .snzBit _ _ => none
  | .szBit _ _ => none

/-- Which flags an instruction writes (10_state.md R57). -/
inductive FlagEffect where
  | none
  /-- C, AC, Z and OV. -/
  | arith
  /-- Z alone. -/
  | zero
  /-- C alone. -/
  | carry
  /-- TO and PDF. -/
  | power
deriving DecidableEq, Repr

/-- The flags of each instruction (10_state.md R57; the flag lines of its rule). -/
def Instr.flagEffect : Instr → FlagEffect
  | .nop => .none
  | .clrWdt => .power
  | .clrWdt1 => .power
  | .halt => .power
  | .ret => .none
  | .reti => .none
  | .clrWdt2 => .power
  | .movMA _ => .none
  | .cplaM _ => .zero
  | .cplM _ => .zero
  | .subAM _ => .arith
  | .submAM _ => .arith
  | .addAM _ => .arith
  | .addmAM _ => .arith
  | .xorAM _ => .zero
  | .xormAM _ => .zero
  | .orAM _ => .zero
  | .ormAM _ => .zero
  | .andAM _ => .zero
  | .andmAM _ => .zero
  | .movAM _ => .none
  | .szaM _ => .none
  | .szM _ => .none
  | .swapaM _ => .none
  | .swapM _ => .none
  | .sbcAM _ => .arith
  | .sbcmAM _ => .arith
  | .adcAM _ => .arith
  | .adcmAM _ => .arith
  | .incaM _ => .zero
  | .incM _ => .zero
  | .decaM _ => .zero
  | .decM _ => .zero
  | .sizaM _ => .none
  | .sizM _ => .none
  | .sdzaM _ => .none
  | .sdzM _ => .none
  | .rlaM _ => .none
  | .rlM _ => .none
  | .rraM _ => .none
  | .rrM _ => .none
  | .rlcaM _ => .carry
  | .rlcM _ => .carry
  | .rrcaM _ => .carry
  | .rrcM _ => .carry
  | .tabrdcM _ => .none
  | .tabrdlM _ => .none
  | .daaM _ => .carry
  | .clrM _ => .none
  | .setM _ => .none
  | .retAx _ => .none
  | .subAx _ => .arith
  | .addAx _ => .arith
  | .xorAx _ => .zero
  | .orAx _ => .zero
  | .andAx _ => .zero
  | .movAx _ => .none
  | .call _ => .none
  | .jmp _ => .none
  | .setBit _ _ => .none
  | .clrBit _ _ => .none
  | .snzBit _ _ => .none
  | .szBit _ _ => .none

/-- The instructions whose destination is the accumulator (RET A,x among them). -/
def Instr.writesAcc : Instr → Bool
  | .nop => false
  | .clrWdt => false
  | .clrWdt1 => false
  | .halt => false
  | .ret => false
  | .reti => false
  | .clrWdt2 => false
  | .movMA _ => false
  | .cplaM _ => true
  | .cplM _ => false
  | .subAM _ => true
  | .submAM _ => false
  | .addAM _ => true
  | .addmAM _ => false
  | .xorAM _ => true
  | .xormAM _ => false
  | .orAM _ => true
  | .ormAM _ => false
  | .andAM _ => true
  | .andmAM _ => false
  | .movAM _ => true
  | .szaM _ => true
  | .szM _ => false
  | .swapaM _ => true
  | .swapM _ => false
  | .sbcAM _ => true
  | .sbcmAM _ => false
  | .adcAM _ => true
  | .adcmAM _ => false
  | .incaM _ => true
  | .incM _ => false
  | .decaM _ => true
  | .decM _ => false
  | .sizaM _ => true
  | .sizM _ => false
  | .sdzaM _ => true
  | .sdzM _ => false
  | .rlaM _ => true
  | .rlM _ => false
  | .rraM _ => true
  | .rrM _ => false
  | .rlcaM _ => true
  | .rlcM _ => false
  | .rrcaM _ => true
  | .rrcM _ => false
  | .tabrdcM _ => false
  | .tabrdlM _ => false
  | .daaM _ => false
  | .clrM _ => false
  | .setM _ => false
  | .retAx _ => true
  | .subAx _ => true
  | .addAx _ => true
  | .xorAx _ => true
  | .orAx _ => true
  | .andAx _ => true
  | .movAx _ => true
  | .call _ => false
  | .jmp _ => false
  | .setBit _ _ => false
  | .clrBit _ _ => false
  | .snzBit _ _ => false
  | .szBit _ _ => false

end Sys2Proof

namespace Sys2Proof.Machine

/-- No wait is longer than `n` cycles. -/
def Gap.atMost (g : Gap) (n : Nat) : Prop := g.request.left ≤ n ∧ g.read.left ≤ n ∧ g.write.left ≤ n

/-- No wait began in the instruction under way. -/
def Gap.settled (g : Gap) : Prop := g.request.fresh = false ∧ g.read.fresh = false ∧ g.write.fresh = false

/-- What every operation of the machine keeps, inside a step as well. -/
structure State.DataInv (s : State) : Prop where
  /-- The RAM list is in its canonical form. -/
  ramCanonical : s.ram.wf = true
  /-- General purpose RAM is 20H to 7FH and nothing else (10_state.md R30). -/
  ramPlace : s.ram.within 0x20 0x80 = true
  /-- The program memory list is in its canonical form. -/
  romCanonical : s.rom.wf = true
  /-- Program memory is 2048 words, two bytes each (10_state.md R26, 20_memory.md R112). -/
  romPlace : s.rom.within 0 4096 = true
  /-- At most four stack entries (10_state.md R27). -/
  stackDepth : s.stk.length ≤ 4
  /-- At most eight bytes in each FIFO (62_ports_usb_ps2.md R540). -/
  fifo0Size : s.usb.fifo0.bytes.length ≤ 8
  fifo1Size : s.usb.fifo1.bytes.length ≤ 8
  /-- The port B bits that do not exist hold nothing (62_ports_usb_ps2.md R505). -/
  portBLatch : s.ports.pb &&& ~~~portBMask = 0x00#8
  portBControl : s.ports.pbc &&& ~~~portBMask = 0x00#8
  /-- A PIPE bit stands only beside its EPkIF, and bits 7 to 2 are 0 (62_ports_usb_ps2.md R517, R547, D12). -/
  pipeFlags : s.usb.pipe &&& ~~~(s.usb.usr &&& 0x03#8) = 0x00#8
  /-- No 2 µs wait is longer than `FIFO_GAP` (62_ports_usb_ps2.md R546). -/
  gapLength : s.gap.atMost (fifoGap s.config)

/-- The invariant of the machine between two steps. -/
structure State.Inv (s : State) : Prop extends s.DataInv where
  /-- While halted PDF is 1 and TO is 0 (45_table_misc.md R318, 60_exceptions.md R430). -/
  haltFlags : s.halt.halted = true → s.flags.pdf = true ∧ s.flags.timeout = false
  /-- A request flag that is 0 has no age (log 29). -/
  usbAge : s.intc.usbf = false → s.irqAge.usb = 0
  timerAge : s.intc.tf = false → s.irqAge.timer = 0
  /-- No 2 µs wait is left half begun (log 22). -/
  gapSettled : s.gap.settled

/-- The byte an instruction reads at its operand `m` (20_memory.md R106, R107). -/
def State.val (s : State) (m : DataAddr) : Byte := (memRead (ea m s) s).1

/-- The state after that read, with the side effects of 20_memory.md R107. -/
def State.seen (s : State) (m : DataAddr) : State := (memRead (ea m s) s).2

/-- The helper `add8(a, b, cin)` of 00_scope.md R14 in integers: `r` is its result and `g` has its four flags; TO and
PDF of `g` are those of `f`. -/
def IsSum (f : Flags) (a b : Byte) (cin : Bool) (r : Byte) (g : Flags) : Prop :=
  r.toNat = (a.toNat + b.toNat + cin.toNat) % 256 ∧
    (g.c = true ↔ 256 ≤ a.toNat + b.toNat + cin.toNat) ∧
    (g.ac = true ↔ 16 ≤ a.toNat % 16 + b.toNat % 16 + cin.toNat) ∧
    (g.ov = true ↔ ¬(128 ≤ a.toNat % 128 + b.toNat % 128 + cin.toNat ↔ 256 ≤ a.toNat + b.toNat + cin.toNat)) ∧
    (g.z = true ↔ r.toNat = 0) ∧ g.pdf = f.pdf ∧ g.timeout = f.timeout

/-- `not8(v) = 255 - v` (40_arithmetic.md R200). -/
def not8 (v : Byte) : Byte := BitVec.ofNat 8 (255 - v.toNat)

/-- `i` is an instruction that reads `[m]`, puts a byte into ACC and sets flags, in one cycle; `R s v r g` relates the
state before and the byte read to that byte and the flags after. Nothing else changes. An unimplemented bank 1 address
is refused (93_implementation_defined.md K9). -/
def Accumulates (i : Instr) (m : DataAddr) (R : State → Byte → Byte → Flags → Prop) : Prop :=
  ∀ s : State,
    (ea m s ≠ .unmapped → ∃ r g, R s (s.val m) r g ∧
      exec i s = .next ((((s.seen m).setAcc r).setFlags g).addCycles 1)) ∧
    (ea m s = .unmapped → exec i s = .refused .bank1Unimplemented)

/-- `i` is a read-modify-write instruction that sets flags (20_memory.md R109): it reads `[m]`, writes a byte back to
the same location and sets flags, in one cycle (a write of PCL adds one). STATUS as destination is refused; WDTS takes
only a byte whose bits 7 to 3 are 10000. -/
def Modifies (i : Instr) (m : DataAddr) (R : State → Byte → Byte → Flags → Prop) : Prop :=
  ∀ s : State,
    (ea m s ≠ .unmapped → ea m s ≠ .status → ea m s ≠ .wdts → ∃ r g, R s (s.val m) r g ∧
      exec i s = .next (storeLoc (ea m s) r (((s.seen m).setFlags g).addCycles 1))) ∧
    (ea m s = .wdts → ∃ r g, R s (s.val m) r g ∧
      (r.extractLsb' 3 5 = 0b10000#5 →
        exec i s = .next (storeLoc .wdts r (((s.seen m).setFlags g).addCycles 1))) ∧
      (r.extractLsb' 3 5 ≠ 0b10000#5 → exec i s = .refused .wdtsReserved)) ∧
    (ea m s = .status → exec i s = .refused .statusDestination) ∧
    (ea m s = .unmapped → exec i s = .refused .bank1Unimplemented)

/-- `i` is a read-modify-write instruction that sets no flag (20_memory.md R109); STATUS is a destination like any
other. -/
def ModifiesPlainly (i : Instr) (m : DataAddr) (R : Byte → Byte → Prop) : Prop :=
  ∀ s : State,
    (ea m s ≠ .unmapped → ea m s ≠ .wdts → ∃ r, R (s.val m) r ∧
      exec i s = .next (storeLoc (ea m s) r ((s.seen m).addCycles 1))) ∧
    (ea m s = .wdts → ∃ r, R (s.val m) r ∧
      (r.extractLsb' 3 5 = 0b10000#5 → exec i s = .next (storeLoc .wdts r ((s.seen m).addCycles 1))) ∧
      (r.extractLsb' 3 5 ≠ 0b10000#5 → exec i s = .refused .wdtsReserved)) ∧
    (ea m s = .unmapped → exec i s = .refused .bank1Unimplemented)

/-- `i` writes the byte `v s` to `[m]` without reading it, after the change `pre` of the state (the identity but for the
table reads), in `n` cycles (a write of PCL adds one). -/
def Stores (i : Instr) (m : DataAddr) (v : State → Byte) (pre : State → State) (n : Nat) : Prop :=
  ∀ s : State,
    (ea m s ≠ .unmapped → ea m s ≠ .wdts →
      exec i s = .next (storeLoc (ea m s) (v s) ((pre s).addCycles n))) ∧
    (ea m s = .wdts → (v s).extractLsb' 3 5 = 0b10000#5 →
      exec i s = .next (storeLoc .wdts (v s) ((pre s).addCycles n))) ∧
    (ea m s = .wdts → (v s).extractLsb' 3 5 ≠ 0b10000#5 → exec i s = .refused .wdtsReserved) ∧
    (ea m s = .unmapped → exec i s = .refused .bank1Unimplemented)

/-- `i` is a skip that counts in memory (44_branch.md R277, R278): `[m]` takes the byte `r` that `R` relates to the byte
read, and the next word is stepped over, in one more cycle, if `r` is 00H. PCL as destination is refused. -/
def CountsAndSkips (i : Instr) (m : DataAddr) (R : Byte → Byte → Prop) : Prop :=
  ∀ s : State,
    (ea m s ≠ .unmapped → ea m s ≠ .pcl → ea m s ≠ .wdts → ∃ r, R (s.val m) r ∧
      exec i s = .next (storeLoc (ea m s) r
        (if r = 0x00#8 then ((s.seen m).setPc (s.pc + 1#11)).addCycles 2 else (s.seen m).addCycles 1))) ∧
    (ea m s = .wdts → ∃ r, R (s.val m) r ∧
      (r.extractLsb' 3 5 = 0b10000#5 → exec i s = .next (storeLoc .wdts r ((s.seen m).addCycles 1))) ∧
      (r.extractLsb' 3 5 ≠ 0b10000#5 → exec i s = .refused .wdtsReserved)) ∧
    (ea m s = .pcl → exec i s = .refused .skipToPcl) ∧
    (ea m s = .unmapped → exec i s = .refused .bank1Unimplemented)

/-- `i` is a skip that stores nothing (44_branch.md R271, R273 to R276): it reads `[m]` and steps over the next word, in
one more cycle, if `test` holds of the byte read. -/
def TestsAndSkips (i : Instr) (m : DataAddr) (test : Byte → Prop) : Prop :=
  ∀ s : State,
    (ea m s ≠ .unmapped → test (s.val m) →
      exec i s = .next (((s.seen m).setPc (s.pc + 1#11)).addCycles 2)) ∧
    (ea m s ≠ .unmapped → ¬test (s.val m) → exec i s = .next ((s.seen m).addCycles 1)) ∧
    (ea m s = .unmapped → exec i s = .refused .bank1Unimplemented)

/-- `i` is a skip that puts into ACC the byte `r` that `R` relates to the byte read, and steps over the next word, in
one more cycle, if `r` is 00H (44_branch.md R274, R279, R280). -/
def LoadsAndSkips (i : Instr) (m : DataAddr) (R : Byte → Byte → Prop) : Prop :=
  ∀ s : State,
    (ea m s ≠ .unmapped → ∃ r, R (s.val m) r ∧
      exec i s = .next
        (if r = 0x00#8 then (((s.seen m).setAcc r).setPc (s.pc + 1#11)).addCycles 2
        else ((s.seen m).setAcc r).addCycles 1)) ∧
    (ea m s = .unmapped → exec i s = .refused .bank1Unimplemented)

/-- The instructions of a list, one after another. -/
def execAll : List Instr → State → Out
  | [], s => .next s
  | i :: rest, s => andThen (exec i s) (execAll rest)

/-- The digits of column POR of 70_reset_and_hazards.md R610 and R611: every bit that power-on gives a value, the
constant 1 of MP0 and MP1 and the unimplemented bits, which read 0, among them. -/
structure State.PowerOnDigits (s : State) : Prop where
  pc : s.pc = 0x000#11
  stk : s.stk = []
  pointers : (memRead .mp0 s).1.getLsbD 7 = true ∧ (memRead .mp1 s).1.getLsbD 7 = true
  tblh : (memRead .tblh s).1.getLsbD 7 = false
  flags : s.flags.timeout = false ∧ s.flags.pdf = false
  status : (memRead .status s).1 &&& 0xF0#8 = 0x00#8
  intc : s.intc.toByte = 0x00#8
  tmrc : s.timer.ctl.toByte = 0x08#8
  pwRun : s.timer.pwRun = false
  wdts : (memRead .wdts s).1 = 0x87#8
  wdt : s.wdt.cnt = 0 ∧ s.wdt.pre = .none
  portA : s.ports.pa = 0xFF#8 ∧ s.ports.pac = 0xFF#8
  portB : s.ports.pb &&& portBMask = 0x9C#8 ∧ s.ports.pbc &&& portBMask = 0x9C#8
  usc : s.usb.usc.suspend = false ∧ s.usb.usc.rmotWk = false ∧ s.usb.usc.urstFlag = false ∧
    s.usb.usc.resumeO = false ∧ s.usb.usc.ps2Dao = true ∧ s.usb.usc.ps2Cko = true
  usr : s.usb.usr = 0x40#8
  scc : s.usb.scc = 0x00#8
  pipeCtrl : s.usb.pipeCtrl = 0x03#8
  awr : s.usb.awr = 0x00#8
  stall : s.usb.stall = 0x00#8
  pipe : s.usb.pipe = 0x00#8
  sies : s.usb.sies = 0x00#8
  misc : s.usb.misc.toByte s.usb.ready = 0x00#8
  halted : s.halt.halted = false

/-- The two states have the same program memory and configuration (10_state.md R20 (d), (f)). -/
def State.sameChip (s t : State) : Prop := t.rom = s.rom ∧ t.config = s.config

end Sys2Proof.Machine
end

