-- ==== Sys2Proof/Certificates/Slice0/Obligations.lean ====
section
/-! DEFINITION. The statements for the provers. -/

open Sys2Proof Sys2Proof.Machine

/-! ## Encoding, fetch and the step -/

/-- Decoding the word of an instruction gives the instruction back, with every operand at every value (30_encoding.md
R148 to R153, R155). CLR WDT and CLR WDT1 share a word: each decodes where `CLRWDT_TIMES` makes it the active one. The
words are those of the default encoding, which the spec gives from general knowledge (log 1). -/
def Obligations.DecodeOfEncode : Prop :=
  ∀ (times : ClrWdtTimes) (i : Instr), wellFormed times i = true → decode times (encode i) = .ok i

/-- Each word has one meaning: a word that decodes is the word of the instruction it decodes to, through the byte image
of 20_memory.md R112 as well. The words are those of the default encoding, which the spec gives from general knowledge
(log 1). -/
def Obligations.EncodeOfDecode : Prop :=
  ∀ (times : ClrWdtTimes) (w : CodeWord) (i : Instr),
    (decode times w = .ok i → encode i = w ∧ wellFormed times i = true) ∧
      (decode times w = .ok i → decodeBytes times (wordBytes w.toNat) = .ok (i, []))

/-- The undefined words of the default map are exactly 0006H to 007FH, 0780H to 08FFH, 1C00H to 1CFFH and 1E00H to
1E7FH, and a step that comes to fetch a word that `ENCODING` maps to "undefined" refuses, naming it, whatever the map is
(30_encoding.md R147, R154). A word that `ENCODING` lists first has the meaning listed. The words are those of the
default encoding, which the spec gives from general knowledge, and the map as a list is the model's form (log 1). -/
def Obligations.UndefinedWordsRefused : Prop :=
  let undefined := fun n : Nat =>
    (0x0006 ≤ n ∧ n ≤ 0x007F) ∨ (0x0780 ≤ n ∧ n ≤ 0x08FF) ∨ (0x1C00 ≤ n ∧ n ≤ 0x1CFF) ∨ (0x1E00 ≤ n ∧ n ≤ 0x1E7F)
  (∀ (times : ClrWdtTimes) (w : CodeWord),
      (undefined w.toNat → decode times w = .error (.undefinedWord w)) ∧
      (¬undefined w.toNat → ∃ i, decode times w = .ok i)) ∧
    (∀ s t : State, boundary s = .execute t → t.config.encoding = [] → undefined (t.romWord t.pc).toNat →
      step s = .refused (.undefinedWord (t.romWord t.pc))) ∧
    (∀ (s t : State) (e : DecodeError), boundary s = .execute t → t.config.decode (t.romWord t.pc) = .error e →
      step s = .refused (.undefinedWord (t.romWord t.pc))) ∧
    ∀ (c : Config) (w : CodeWord) (rest : List (CodeWord × Option Instr)),
      (∀ i, c.encoding = (w, some i) :: rest → c.decode w = .ok i) ∧
      (c.encoding = (w, none) :: rest → c.decode w = .error (.undefinedWord w))

/-- Words written out from 30_encoding.md R149 to R153 decode to the instructions they stand for. The words are those of
the default encoding, which the spec gives from general knowledge (log 1). -/
def Obligations.SampleWordsDecode : Prop :=
  decode .one 0b00000000000000#14 = .ok .nop ∧
    decode .one 0b00000000000001#14 = .ok .clrWdt ∧
    decode .two 0b00000000000001#14 = .ok .clrWdt1 ∧
    decode .one 0b00001100100000#14 = .ok (.addAM 0x20#7) ∧
    decode .one 0b01110101111111#14 = .ok (.tabrdcM 0x7F#7) ∧
    decode .one 0b00111101011010#14 = .ok (.movAx 0x5A#8) ∧
    decode .one 0b10000100100011#14 = .ok (.call 0x123#11) ∧
    decode .one 0b10111111111111#14 = .ok (.jmp 0x7FF#11) ∧
    decode .one 0b11001110001011#14 = .ok (.setBit 0x0B#7 7#3) ∧
    decode .one 0b11110100001010#14 = .ok (.szBit 0x0A#7 2#3)

/-- A step that comes to an instruction runs the instruction that the word at PC decodes to by `ENCODING`, with PC
already incremented modulo 2048, and then lets the agents count its cycles (70_reset_and_hazards.md R645 steps 5 and 6;
10_state.md R22, R23). What `exec` refuses, the step refuses. -/
def Obligations.StepRunsDecodedInstruction : Prop :=
  ∀ (s t : State) (i : Instr), boundary s = .execute t →
    t.config.decode (t.romWord t.pc) = .ok i →
    (t.pc + 1#11).toNat = (t.pc.toNat + 1) % 2048 ∧
      (∀ u, exec i (t.setPc (t.pc + 1#11)) = .next u →
        step s = .next (countInstruction (t.setPc (t.pc + 1#11)) u)) ∧
      (∀ r, exec i (t.setPc (t.pc + 1#11)) = .refused r → step s = .refused r)

/-- Without a move of the environment, a change of a pad, SUSPEND2 set beside the LVR, a watchdog time-out or an enabled
interrupt, a running machine comes to its next instruction with nothing changed but two of the model's own fields: the
mark of a wake-up edge at the last boundary, `halt.edge`, is cleared (log 28), and the ages of the request flags go on
(log 29) (70_reset_and_hazards.md R645). That no batch of moves means unchanged levels and no move is the model's form
of the environment (log 7). -/
def Obligations.QuietBoundaryExecutes : Prop :=
  ∀ s : State, s.env.inputs = [] → s.ports.seenA = s.padsA → s.ports.seenB = s.padsB → s.wdtTimedOut = false →
    (s.config.lvrEnable = false ∨ s.usb.scc.getLsbD 4 = false) → s.halt.halted = false → s.intc.emi = false →
    boundary s = .execute ({ s with halt := { s.halt with edge := false } } : State).ageRequests

/-! ## Invariants -/

/-- Every step keeps the invariant of the machine: canonical memories inside their address ranges, at most four stack
entries, at most eight bytes in each FIFO, the missing port B bits, PIPE beside EPkIF, PDF and TO while halted, settled
ages and gaps. -/
def Obligations.InvariantKept : Prop :=
  ∀ s t : State, s.Inv → step s = .next t → t.Inv

/-- The machine after reset meets the invariant. -/
def Obligations.ResetMeetsInvariant : Prop := State.reset.Inv

/-- No step changes program memory or the configuration (10_state.md R20 (d), (f), R26). -/
def Obligations.ProgramMemoryConstant : Prop :=
  ∀ s t : State, step s = .next t → s.sameChip t

/-! ## Resets -/

/-- After power-on every bit that the POR column gives a value has it, the constant bits among them: in the state the
machine starts from, and after any later power-on, whatever came before (70_reset_and_hazards.md R610, R611). -/
def Obligations.PowerOnValues : Prop :=
  State.reset.PowerOnDigits ∧ ∀ s : State, (applyReset .por s).PowerOnDigits

/-- The warm reset empties the stack, clears PC and the watchdog with its memory `pre`, sets TO and PDF and ends the
halted state; every other register, RAM, port latch, timer and USB state is unchanged (70_reset_and_hazards.md R605).
What happens to the two fields that are the model's own is left open. -/
def Obligations.WarmResetKeepsTheRest : Prop :=
  ∀ s : State, ∃ (age : IrqAge) (gap : Gap),
    applyReset .wdtHalt s =
      { s with
        pc := 0x000#11
        stk := []
        flags := { s.flags with timeout := true, pdf := true }
        wdt := { s.wdt with cnt := 0, pre := .none }
        halt := { s.halt with halted := false }
        irqAge := age
        gap := gap }

/-- TO and PDF after each of the seven resets; the ALU flags are unchanged by all but power-on, after which they are
unknown (70_reset_and_hazards.md R609). Which free value they then are, four bits of the eleventh byte to be drawn, is
the model's choice (log 9). -/
def Obligations.FlagsAfterReset : Prop :=
  ∀ s : State,
    ((applyReset .por s).flags =
      { c := (s.drawByte 10).getLsbD 0, ac := (s.drawByte 10).getLsbD 1, z := (s.drawByte 10).getLsbD 2,
        ov := (s.drawByte 10).getLsbD 3, timeout := false, pdf := false }) ∧
    (applyReset .resRun s).flags = s.flags ∧
    (applyReset .resHalt s).flags = { s.flags with timeout := false, pdf := true } ∧
    (applyReset .wdtRun s).flags = { s.flags with timeout := true } ∧
    (applyReset .wdtHalt s).flags = { s.flags with timeout := true, pdf := true } ∧
    (applyReset .usbRun s).flags = s.flags ∧
    (applyReset .usbHalt s).flags = { s.flags with timeout := false, pdf := true }

/-- What the chip resets other than power-on leave of the CPU, the timer, the watchdog and the ports, with the USBF that
a USB reset sets in INTC (70_reset_and_hazards.md R610, R611, R612; 62_ports_usb_ps2.md R514). -/
def Obligations.ChipResetColumns : Prop :=
  ∀ (k : ResetKind) (s : State), k ≠ .por → k ≠ .wdtHalt →
    let t := applyReset k s
    t.pc = 0x000#11 ∧ t.stk = [] ∧ t.acc = s.acc ∧ t.mp0 = s.mp0 ∧ t.mp1 = s.mp1 ∧ t.tblp = s.tblp ∧
      t.tblh = s.tblh ∧ t.timer.cnt = s.timer.cnt ∧ t.timer.pre = s.timer.pre ∧ t.timer.buf = s.timer.buf ∧
      t.timer.ctl.toByte = 0x08#8 ∧ t.timer.pwRun = false ∧ (memRead .wdts t).1 = 0x87#8 ∧ t.wdt.cnt = 0 ∧
      t.wdt.pre = .none ∧ t.ports.pa = 0xFF#8 ∧ t.ports.pac = 0xFF#8 ∧ t.ports.pb &&& portBMask = 0x9C#8 ∧
      t.ports.pbc &&& portBMask = 0x9C#8 ∧ t.halt.halted = false ∧
      (t.intc.toByte = if k = .usbRun ∨ k = .usbHalt then 0x10#8 else 0x00#8) ∧
      (s.config.ramAfterReset = .survives → t.ram = s.ram) ∧
      (∀ b, s.config.bpReset = some b → t.bp = b) ∧ (∀ v, s.config.tbhpReset = some v → t.tbhp = v)

/-- What each reset leaves of the USB registers: the watchdog resets keep them, the RES resets and the USB resets have
their columns, and a USB reset then sets URST_FLAG and USBF (70_reset_and_hazards.md R610 to R612, 62_ports_usb_ps2.md
R514). PS2_DAI and PS2_CKI, which show the pads, read 0 after a USB reset, as the digits of its column say; that the
reset does this by leaving both lines low is the model's choice (log 18). That the watchdog resets keep the address the
SIE answers to is the model's reading (log 24), and that the watchdog and RES resets keep each FIFO's direction mark and
busy bit, not its contents alone, is the model's choice (log 21). -/
def Obligations.UsbRegistersAfterReset : Prop :=
  ∀ s : State,
    (applyReset .wdtRun s).usb = s.usb ∧ (applyReset .wdtHalt s).usb = s.usb ∧
    (∀ k, k = .resRun ∨ k = .resHalt ∨ k = .usbRun ∨ k = .usbHalt →
      let u := (applyReset k s).usb
      u.awr = 0x00#8 ∧ u.pipe = 0x00#8 ∧ u.stall = 0x00#8 ∧ u.sies = 0x00#8 ∧ u.pipeCtrl = 0x03#8 ∧
        u.misc.toByte u.ready = 0x00#8 ∧ u.usc.suspend = false ∧ u.usc.rmotWk = false ∧ u.usc.resumeO = false ∧
        u.usc.ps2Dao = true ∧ u.usc.ps2Cko = true) ∧
    (∀ k, k = .resRun ∨ k = .resHalt →
      let u := (applyReset k s).usb
      u.usr = 0x40#8 ∧ u.scc = 0x00#8 ∧ u.fifo0 = s.usb.fifo0 ∧ u.fifo1 = s.usb.fifo1 ∧ u.usc.urstFlag = false) ∧
    (∀ k, k = .usbRun ∨ k = .usbHalt →
      let u := (applyReset k s).usb
      (∀ i, i < 8 → u.usr.getLsbD i =
        if i = 4 ∨ i = 5 ∨ i = 7 then s.usb.usr.getLsbD i else decide (i = 6)) ∧
      (∀ i, i < 8 → u.scc.getLsbD i = if i = 3 ∨ i = 6 ∨ i = 7 then s.usb.scc.getLsbD i else false) ∧
      u.fifo0.bytes = [] ∧ u.fifo1.bytes = [] ∧ u.usc.urstFlag = true ∧ (applyReset k s).intc.usbf = true ∧
      (s.usb.usr.getLsbD 4 ≠ s.usb.usr.getLsbD 5 →
        (memRead .usc (applyReset k s)).1.getLsbD 4 = false ∧ (memRead .usc (applyReset k s)).1.getLsbD 5 = false))

/-- A watchdog that is enabled and has reached its limit resets the machine at the boundary, before any interrupt: while
running TO becomes 1 and PDF stays, while halted it is the warm reset with TO = 1 and PDF = 1; the count starts again
from 0 (61_timers_wdt.md R473). That a count above the limit times out too is the model's reading (log 27), and that the
reset wins over an interrupt at the same boundary is a decision of the spec's own (D29). That a watchdog on the
instruction clock can so end HALT, where HALT's own cycle reached the limit, is the model's choice (log 28). -/
def Obligations.WatchdogTimeOutResets : Prop :=
  ∀ s t : State, environmentMoves s = .execute t → t.config.wdtEnable = true →
    256 * 2 ^ t.wdt.ws.toNat ≤ t.wdt.cnt →
    ∃ u, step s = .next u ∧ u.pc = 0x000#11 ∧ u.stk = [] ∧ u.wdt.cnt = 0 ∧ u.flags.timeout = true ∧
      (t.halt.halted = false → u = applyReset .wdtRun t ∧ u.flags.pdf = t.flags.pdf) ∧
      (t.halt.halted = true → u = applyReset .wdtHalt t ∧ u.flags.pdf = true)

/-- A reset among the environment's moves ends the step with its kind applied to the state that the moves before it led
to, whatever interrupt is pending: RES low resets as RESn or RESh, a valid low voltage does the same only with LVR
enabled, a USB bus reset resets as USBn or USBh while the USB interface is selected, power-on as POR. A move that is no
reset in its state lets the moves after it go on. After all moves SUSPEND2 set with the LVR enabled resets as the LVR
does (70_reset_and_hazards.md R600, R601, R645; 62_ports_usb_ps2.md R515). That the moves after a reset are kept for the
next boundary is the model's choice (log 30), and so are the instant of the SUSPEND2 reset (log 31) and that a USB bus
reset needs neither USBCKEN nor a matching SCLKSEL (log 19). -/
def Obligations.EnvironmentResets : Prop :=
  (∀ (s t : State) (p : Pads) (before : List EnvMove) (m : EnvMove) (later : List EnvMove) (rest : List Input),
    s.env.inputs = { pads := p, moves := before ++ m :: later } :: rest →
    runMoves before (samplePads p { s with env := { s.env with inputs := rest } }) = .execute t →
    let resetBy := fun k : ResetKind => step s = .next ((applyReset k t).keepMoves later)
    let goesOn := listedMoves s = runMoves later t
    let selected := t.usb.usr.getLsbD 5 = true ∧ t.usb.usr.getLsbD 4 = false
    (m = .powerOn → resetBy .por) ∧
    (m = .resLow → resetBy (if s.halt.halted then .resHalt else .resRun)) ∧
    (m = .lowVoltage → s.config.lvrEnable = true → resetBy (if s.halt.halted then .resHalt else .resRun)) ∧
    (m = .lowVoltage → s.config.lvrEnable = false → goesOn) ∧
    (m = .usbReset → selected → resetBy (if s.halt.halted then .usbHalt else .usbRun)) ∧
    (m = .usbReset → ¬selected → goesOn)) ∧
  ∀ s t : State, listedMoves s = .execute t → t.config.lvrEnable = true → t.usb.scc.getLsbD 4 = true →
    step s = .next (applyReset (if s.halt.halted then .resHalt else .resRun) t)

/-! ## Interrupts -/

/-- At a boundary of a running machine with EMI = 1 and room on the stack, an enabled and pending USB interrupt is
entered at 004H, and an enabled and pending timer interrupt at 00CH if the USB one is not acknowledgeable: PC is pushed,
the flag of the source taken and EMI are cleared, and nothing else changes but the ages of the request flags and the
cycle count (60_exceptions.md R408, R411, R412). That `IRQ_LATENCY` is compared with the number of boundaries at which
the flag was seen is the model's choice (log 29). -/
def Obligations.InterruptEntered : Prop :=
  ∀ s t : State, environmentMoves s = .execute t → t.wdtTimedOut = false → t.halt.halted = false →
    t.intc.emi = true → t.stk.length < 4 →
    (t.intc.eui = true → t.intc.usbf = true → t.config.irqLatency ≤ t.irqAge.usb →
      ∃ u, step s = .next u ∧
        u = { t with
          pc := 0x004#11
          stk := t.pc :: t.stk
          intc := { t.intc with usbf := false, emi := false }
          irqAge := u.irqAge
          cyc := t.cyc + t.config.irqEntryCycles }) ∧
    (t.intc.eti = true → t.intc.tf = true → t.config.irqLatency ≤ t.irqAge.timer →
      ¬(t.intc.eui = true ∧ t.intc.usbf = true ∧ t.config.irqLatency ≤ t.irqAge.usb) →
      ∃ u, step s = .next u ∧
        u = { t with
          pc := 0x00C#11
          stk := t.pc :: t.stk
          intc := { t.intc with tf := false, emi := false }
          irqAge := u.irqAge
          cyc := t.cyc + t.config.irqEntryCycles })

/-- No interrupt is taken while EMI = 0, while the stack is full, or without a request whose own enable bit is 1: the
machine goes on to its next instruction with the request flags as they are (60_exceptions.md R406, R407, R411, R418);
nor before `IRQ_LATENCY` boundaries have seen the request, which is the model's form of that parameter (log 29). -/
def Obligations.InterruptHeldOff : Prop :=
  ∀ s t : State, environmentMoves s = .execute t → t.wdtTimedOut = false → t.halt.halted = false →
    (t.intc.emi = false ∨ 4 ≤ t.stk.length ∨
      (¬(t.intc.eui = true ∧ t.intc.usbf = true ∧ t.config.irqLatency ≤ t.irqAge.usb) ∧
        ¬(t.intc.eti = true ∧ t.intc.tf = true ∧ t.config.irqLatency ≤ t.irqAge.timer))) →
    boundary s = .execute t.ageRequests ∧ t.ageRequests.intc = t.intc ∧ t.ageRequests.pc = t.pc

/-- RETI after an interrupt entry continues the interrupted program: PC and the stack are as before the entry and EMI is
1 again, the source's request flag stays cleared, and no register, flag of STATUS or byte of memory has changed
(60_exceptions.md R412, R413, R416; 44_branch.md R284). -/
def Obligations.RetiResumesInterruptedProgram : Prop :=
  ∀ (s : State) (src : IrqSource), s.stk.length < 4 → s.intc.emi = true →
    ∃ u, exec .reti (enterInterrupt src s) = .next u ∧ u.pc = s.pc ∧ u.stk = s.stk ∧
      u.intc = (match src with
        | .usb => { s.intc with usbf := false }
        | .timer => { s.intc with tf := false }) ∧
      u.acc = s.acc ∧ u.flags = s.flags ∧ u.mp0 = s.mp0 ∧ u.mp1 = s.mp1 ∧ u.bp = s.bp ∧ u.tblp = s.tblp ∧
      u.tblh = s.tblh ∧ u.tbhp = s.tbhp ∧ (∀ a, u.ram.read a = s.ram.read a) ∧ u.rom = s.rom ∧
      u.timer = s.timer ∧ u.wdt = s.wdt ∧ u.ports = s.ports ∧ u.usb = s.usb

/-! ## HALT and wake-up -/

/-- HALT sets PDF, clears TO, clears the watchdog if and only if its clock is the RC oscillator, and halts the machine;
nothing else changes (45_table_misc.md R318). `halt.usbf`, `halt.tf` and `halt.edge` are the model's own (log 28). The
words are those of the default encoding, which the spec gives from general knowledge (log 1). -/
def Obligations.HaltEntersPowerDown : Prop :=
  ∀ s : State, encode .halt = 0x0002#14 ∧
    exec .halt s = .next
      { s with
        flags := { s.flags with pdf := true, timeout := false }
        wdt := if s.config.wdtSrc = .rc then { s.wdt with cnt := 0, pre := .none } else s.wdt
        halt := { halted := true, usbf := s.intc.usbf, tf := s.intc.tf, edge := false }
        cyc := s.cyc + 1 }

/-- While halted, a boundary with no reset, no watchdog time-out and no wake event executes nothing: the step leaves
every register of the CPU, STATUS, the stack and both memories as they were, and the machine stays halted
(60_exceptions.md R430, R431, R437; 70_reset_and_hazards.md R645 step 3). -/
def Obligations.HaltedMachineWaits : Prop :=
  ∀ s t : State, environmentMoves s = .execute t → t.wdtTimedOut = false → s.halt.halted = true →
    t.halt.edge = false → (t.intc.usbf = true → s.halt.usbf = true) → (t.intc.tf = true → s.halt.tf = true) →
    step s = .next t ∧ t.halt.halted = true ∧ t.pc = s.pc ∧ t.acc = s.acc ∧ t.flags = s.flags ∧ t.stk = s.stk ∧
      t.mp0 = s.mp0 ∧ t.mp1 = s.mp1 ∧ t.bp = s.bp ∧ t.tblp = s.tblp ∧ t.tblh = s.tblh ∧ t.tbhp = s.tbhp ∧
      t.ram = s.ram ∧ t.rom = s.rom ∧ t.cyc = s.cyc

/-- A selected port edge, or a request flag that has risen since HALT, ends the halted state, and nothing else changes
but two fields of the model's own: if the acknowledge condition holds the interrupt is entered with the address after
HALT pushed, else the next instruction is the one after HALT; TO and PDF stay as HALT left them (60_exceptions.md R431,
R433, R434, R435). That a flag raised in HALT's own cycle wakes is the model's choice (log 28), and so is how
`IRQ_LATENCY` enters the acknowledge condition (log 29). -/
def Obligations.WakeEventResumes : Prop :=
  ∀ s t : State, environmentMoves s = .execute t → t.wdtTimedOut = false → t.halt.halted = true →
    (t.halt.edge = true ∨ (t.intc.usbf = true ∧ t.halt.usbf = false) ∨ (t.intc.tf = true ∧ t.halt.tf = false)) →
    let usbOk := t.intc.emi = true ∧ t.stk.length < 4 ∧ t.intc.eui = true ∧ t.intc.usbf = true ∧
      t.config.irqLatency ≤ t.irqAge.usb
    let timerOk := t.intc.emi = true ∧ t.stk.length < 4 ∧ t.intc.eti = true ∧ t.intc.tf = true ∧
      t.config.irqLatency ≤ t.irqAge.timer
    ∃ v : State, v = { t with halt := { t.halt with halted := false }, irqAge := v.irqAge, gap := v.gap } ∧
      (usbOk → step s = .next (enterInterrupt .usb v)) ∧
      (timerOk → ¬usbOk → step s = .next (enterInterrupt .timer v)) ∧
      (¬usbOk → ¬timerOk → boundary s = .execute v)

/-- Which port edges wake: falling on a selected PA0, PA1, PA4 to PA7, PB4 or PB7, either edge on a selected PA2 or PA3,
and no other; the edge is between the levels sampled at the boundary before and the levels at this one (60_exceptions.md
R433; 62_ports_usb_ps2.md R506). An input line has the environment's level and a CMOS output line its latch's. The
levels of NMOS and PMOS outputs, and that an output line can wake, are the model's choice (log 26). -/
def Obligations.WakeUpEdges : Prop :=
  (∀ (c : Config) (oldA newA oldB newB : Byte),
    wakeEdge c oldA newA oldB newB = true ↔
      (∃ i, i < 8 ∧ c.wakeA.getLsbD i = true ∧
        ((oldA.getLsbD i = true ∧ newA.getLsbD i = false) ∨
          ((i = 2 ∨ i = 3) ∧ oldA.getLsbD i = false ∧ newA.getLsbD i = true))) ∨
      (c.wakeB4 = true ∧ oldB.getLsbD 4 = true ∧ newB.getLsbD 4 = false) ∨
      (c.wakeB7 = true ∧ oldB.getLsbD 7 = true ∧ newB.getLsbD 7 = false)) ∧
  (∀ (s : State) (p : Pads),
    let u : State := { s with env := { s.env with pads := p } }
    let t := samplePads p s
    t.halt.edge = wakeEdge s.config s.ports.seenA u.padsA s.ports.seenB u.padsB ∧
      t.ports = { s.ports with seenA := u.padsA, seenB := u.padsB } ∧ t.env = { s.env with pads := p } ∧
      (∀ i : Fin 8, u.padsA.getLsbD i =
        if s.ports.pac.getLsbD i = true then p.pa.getLsbD i
        else match s.config.paOutMode[i] with
          | .cmos => s.ports.pa.getLsbD i
          | .nmos => s.ports.pa.getLsbD i && p.pa.getLsbD i
          | .pmos => s.ports.pa.getLsbD i || p.pa.getLsbD i) ∧
      ∀ i, i < 8 → u.padsB.getLsbD i =
        if i = 2 ∨ i = 3 ∨ i = 4 ∨ i = 7 then
          if s.ports.pbc.getLsbD i = true then p.pb.getLsbD i else s.ports.pb.getLsbD i
        else false) ∧
  ∀ s : State,
    (s.env.inputs = [] → listedMoves s = .execute (samplePads s.env.pads s)) ∧
    ∀ x rest, s.env.inputs = x :: rest →
      listedMoves s = runMoves x.moves (samplePads x.pads { s with env := { s.env with inputs := rest } })

/-! ## Timer and watchdog -/

/-- The four accesses of TMRH and TMRL (61_timers_wdt.md R453, R454, R455, R456); nothing else changes. -/
def Obligations.TimerRegisterAccess : Prop :=
  ∀ (s : State) (v : Byte),
    storeLoc .tmrl v s = { s with timer := { s.timer with buf := v } } ∧
    storeLoc .tmrh v s =
      { s with
        timer :=
          { s.timer with
            pre := v ++ s.timer.buf
            cnt := if s.timer.ctl.ton = false then v ++ s.timer.buf else s.timer.cnt } } ∧
    (memRead .tmrh s).1.toNat = s.timer.cnt.toNat / 256 ∧
    (memRead .tmrh s).2 = { s with timer := { s.timer with buf := BitVec.ofNat 8 s.timer.cnt.toNat } } ∧
    memRead .tmrl s = (s.timer.buf, s)

/-- The counter counts up from its contents without a request, and the count after FFFFH reloads the preload value and
sets TF: `65536 - TCNT` counts after any start, so every `65536 - TPRE` counts from then on (61_timers_wdt.md R459,
R460). -/
def Obligations.TimerOverflowPeriod : Prop :=
  ∀ s : State,
    (∀ k, k < 65536 - s.timer.cnt.toNat →
      (State.timerCountN k s).timer.cnt.toNat = s.timer.cnt.toNat + k ∧ (State.timerCountN k s).intc = s.intc) ∧
    (State.timerCountN (65536 - s.timer.cnt.toNat) s).timer = { s.timer with cnt := s.timer.pre } ∧
    (State.timerCountN (65536 - s.timer.cnt.toNat) s).intc = { s.intc with tf := true }

/-- What an instruction of `n` cycles counts when it completes: in timer mode `n`, in pulse-width mode `n` while a
measurement runs, else nothing (61_timers_wdt.md R458, R461, R463). That TON must be 1 before and after the instruction,
and that the mode is the one after it, is the model's choice (log 25). -/
def Obligations.InstructionCyclesCounted : Prop :=
  ∀ (before after : State) (n : Nat), after.cyc = before.cyc + n →
    let t := countInstruction before after
    let counts := State.timerCountN n after
    (before.timer.ctl.ton = false ∨ after.timer.ctl.ton = false → t.timer = after.timer ∧ t.intc = after.intc) ∧
    (before.timer.ctl.ton = true → after.timer.ctl.ton = true →
      (after.timer.ctl.tm1 = true → after.timer.ctl.tm0 = false → t.timer = counts.timer ∧ t.intc = counts.intc) ∧
      (after.timer.ctl.tm1 = true → after.timer.ctl.tm0 = true → after.timer.pwRun = true →
        t.timer = counts.timer ∧ t.intc = counts.intc) ∧
      (after.timer.ctl.tm1 = true → after.timer.ctl.tm0 = true → after.timer.pwRun = false →
        t.timer = after.timer ∧ t.intc = after.intc) ∧
      (after.timer.ctl.tm1 = false → t.timer = after.timer ∧ t.intc = after.intc))

/-- What an edge of the TMR input does. Event count mode counts the rising edge with TE = 0 and the falling edge with TE
= 1, also while halted. Pulse-width mode starts a measurement on the rising edge with TE = 1 and on the falling edge
with TE = 0, and ends it, clearing TON, on the opposite edge. With TON = 0 nothing happens (61_timers_wdt.md R462,
R463). The TMR input is PA7: the edge at a boundary is between the level of that pad sampled before and its level now
(R458; 62_ports_usb_ps2.md R506). That pulse-width mode sees no edge while halted is the model's choice (log 25), and so
is that PA7 need not be an input (log 26). -/
def Obligations.TimerInputEdges : Prop :=
  (∀ (s : State) (p : Pads),
    let u := s.timerEdge (s.ports.seenA.getLsbD 7)
      ((State.padsA { s with env := { s.env with pads := p } }).getLsbD 7)
    (samplePads p s).timer = u.timer ∧ (samplePads p s).intc = u.intc) ∧
  ∀ (s : State) (old new : Bool),
    let rises := old = false ∧ new = true
    let falls := old = true ∧ new = false
    (s.timer.ctl.ton = false → s.timerEdge old new = s) ∧
    (s.timer.ctl.ton = true → s.timer.ctl.tm1 = false → s.timer.ctl.tm0 = true →
      ((if s.timer.ctl.te = false then rises else falls) → s.timerEdge old new = s.timerCount) ∧
      (¬(if s.timer.ctl.te = false then rises else falls) → s.timerEdge old new = s)) ∧
    (s.timer.ctl.ton = true → s.timer.ctl.tm1 = true → s.timer.ctl.tm0 = true → s.halt.halted = false →
      (s.timer.pwRun = false → (if s.timer.ctl.te = true then rises else falls) →
        s.timerEdge old new = s.setTimer { s.timer with pwRun := true }) ∧
      (s.timer.pwRun = false → ¬(if s.timer.ctl.te = true then rises else falls) → s.timerEdge old new = s) ∧
      (s.timer.pwRun = true → (if s.timer.ctl.te = true then falls else rises) →
        s.timerEdge old new = s.setTimer { s.timer with pwRun := false, ctl := { s.timer.ctl with ton := false } }) ∧
      (s.timer.pwRun = true → ¬(if s.timer.ctl.te = true then falls else rises) → s.timerEdge old new = s)) ∧
    (s.timer.ctl.ton = true → s.timer.ctl.tm1 = true → s.timer.ctl.tm0 = true → s.halt.halted = true →
      s.timerEdge old new = s) ∧
    (s.timer.ctl.ton = true → s.timer.ctl.tm0 = false → s.timerEdge old new = s)

/-- The watchdog times out when its count has reached 256 times the division ratio that WS2 to WS0 select. The cycles of
every instruction advance it when its clock is the instruction clock, the ticks of the RC oscillator when it is that,
and nothing when it is disabled (61_timers_wdt.md R470, R471, R472). That it times out at every count from the limit on
is the model's reading (log 27), and that HALT's own cycle counts is its choice (log 28). -/
def Obligations.WatchdogCounts : Prop :=
  (∀ s : State,
    (s.config.wdtEnable = false → s.wdtTimedOut = false) ∧
    (s.config.wdtEnable = true →
      ∀ limit, (s.wdt.ws, limit) ∈
        [(0b000#3, 256), (0b001#3, 512), (0b010#3, 1024), (0b011#3, 2048), (0b100#3, 4096), (0b101#3, 8192),
          (0b110#3, 16384), (0b111#3, 32768)] →
        (s.wdtTimedOut = true ↔ limit ≤ s.wdt.cnt))) ∧
  (∀ (before after : State) (n : Nat), after.cyc = before.cyc + n →
    (countInstruction before after).wdt.ws = after.wdt.ws ∧ (countInstruction before after).wdt.pre = after.wdt.pre ∧
      (countInstruction before after).wdt.cnt =
        if after.config.wdtEnable = true ∧ after.config.wdtSrc = .sys4 then after.wdt.cnt + n else after.wdt.cnt) ∧
    ∀ s : State, ∃ t, applyMove .wdtTick s = .goesOn t ∧
      t = s.setWdt { s.wdt with
        cnt := if s.config.wdtEnable = true ∧ s.config.wdtSrc = .rc then s.wdt.cnt + 1 else s.wdt.cnt }

/-- CLR WDT, CLR WDT1 and CLR WDT2: with CLRWDT_TIMES = 1 each clears the watchdog, TO and PDF; with 2 the one that
completes the pair does, and the other only leaves its mark (CLR WDT is then CLR WDT1); one cycle, nothing else changes
(45_table_misc.md R313, R314, R315). The words are those of the default encoding, which the spec gives from general
knowledge (log 1). -/
def Obligations.WatchdogClearInstructions : Prop :=
  ∀ s : State,
    let cleared : State := { s with
      wdt := { s.wdt with cnt := 0, pre := .none }, flags := { s.flags with timeout := false, pdf := false }
      cyc := s.cyc + 1 }
    let marked := fun p : Preclear => { s with wdt := { s.wdt with pre := p }, cyc := s.cyc + 1 }
    encode .clrWdt = 0x0001#14 ∧ encode .clrWdt1 = 0x0001#14 ∧ encode .clrWdt2 = 0x0005#14 ∧
    (s.config.clrWdtTimes = .one →
      exec .clrWdt s = .next cleared ∧ exec .clrWdt1 s = .next cleared ∧ exec .clrWdt2 s = .next cleared) ∧
    (s.config.clrWdtTimes = .two →
      (s.wdt.pre = .got2 → exec .clrWdt1 s = .next cleared ∧ exec .clrWdt s = .next cleared) ∧
      (s.wdt.pre ≠ .got2 → exec .clrWdt1 s = .next (marked .got1) ∧ exec .clrWdt s = .next (marked .got1)) ∧
      (s.wdt.pre = .got1 → exec .clrWdt2 s = .next cleared) ∧
      (s.wdt.pre ≠ .got1 → exec .clrWdt2 s = .next (marked .got2)))

/-- The pair may be any distance apart: CLR WDT1, then any instructions but HALT and the CLR WDT group, then CLR WDT2
clears the watchdog, TO and PDF; in the other order as well (45_table_misc.md R314). -/
def Obligations.WatchdogPairAtAnyDistance : Prop :=
  ∀ (s t u v : State) (between : List Instr), s.config.clrWdtTimes = .two →
    (∀ i ∈ between, i.flagEffect ≠ .power) →
    (s.wdt.pre ≠ .got2 → exec .clrWdt1 s = .next t → execAll between t = .next u → exec .clrWdt2 u = .next v →
      v.wdt.cnt = 0 ∧ v.wdt.pre = .none ∧ v.flags.timeout = false ∧ v.flags.pdf = false) ∧
    (s.wdt.pre ≠ .got1 → exec .clrWdt2 s = .next t → execAll between t = .next u → exec .clrWdt1 u = .next v →
      v.wdt.cnt = 0 ∧ v.wdt.pre = .none ∧ v.flags.timeout = false ∧ v.flags.pdf = false)

/-! ## Data memory and its registers -/

/-- Where an operand `m` leads (20_memory.md R103, R106; 10_state.md R31, R48, R49): the maps of both banks; `m` = 00H
goes through MP0 always in bank 0, `m` = 02H through MP1 in the bank that BP selects for addresses above 1FH, every
other `m` is direct; a pointer that holds 00H or 02H reaches the unimplemented location, which reads 00H and drops
writes. -/
def Obligations.OperandResolution : Prop :=
  ((List.range 0x20).map fun a => bank0 (BitVec.ofNat 7 a)) =
      [.null, .mp0, .null, .mp1, .bp, .acc, .pcl, .tblp, .tblh, .wdts, .status, .intc, .reserved, .reserved,
        .reserved, .tmrh, .tmrl, .tmrc, .pa, .pac, .pb, .pbc, .reserved, .reserved, .reserved, .reserved, .usc, .usr,
        .scc, .reserved, .reserved, .tbhp] ∧
    (∀ a : DataAddr, 0x20 ≤ a.toNat → bank0 a = .ram a) ∧
    ((List.range 0x0A).map fun a => bank1 (BitVec.ofNat 7 (0x40 + a))) =
      [.unmapped, .pipeCtrl, .awr, .stall, .pipe, .sies, .misc, .unmapped, .fifo .ep0, .fifo .ep1] ∧
    (∀ a : DataAddr, (a.toNat < 0x41 ∨ 0x49 < a.toNat) → bank1 a = .unmapped) ∧
  ∀ s : State,
    ea 0x00#7 s = (if s.mp0 = 0x00#7 ∨ s.mp0 = 0x02#7 then .null else bank0 s.mp0) ∧
    ea 0x02#7 s =
      (if s.mp1 = 0x00#7 ∨ s.mp1 = 0x02#7 then .null
      else if s.mp1.toNat < 0x20 then bank0 s.mp1
      else if s.bp = false then bank0 s.mp1 else bank1 s.mp1) ∧
    (∀ m, m ≠ 0x00#7 → m ≠ 0x02#7 → ea m s = bank0 m) ∧
    ∀ v, memRead .null s = (0x00#8, s) ∧ storeLoc .null v s = s

/-- RAM is plain storage: a byte written is what its location reads as, every other location reads as before, and the
memory keeps its canonical form (10_state.md R30, 20_memory.md R114, R115). -/
def Obligations.RamReadAfterWrite : Prop :=
  ∀ (s : State) (a b : DataAddr) (v : Byte), s.ram.wf = true →
    (memRead (.ram b) (storeLoc (.ram a) v s)).1 = (if b = a then v else (memRead (.ram b) s).1) ∧
      (memRead (.ram b) s).2 = s ∧ (storeLoc (.ram a) v s).ram.wf = true

/-- What a register reads as after a write of `v`: its writable bits are those of `v`, its unimplemented bits read as
constants, its read-only bits as before; of MISC all bits but Ready (20_memory.md R107, R108; 10_state.md R33 to R40,
R42, R43, R46 to R55). That a program can also set Set CMD, Len0 and the flags of SIES is the model's choice (log 20),
and so is when the 2 µs wait runs, within which the read of MISC under a request is a free value (62_ports_usb_ps2.md
R546; log 22). -/
def Obligations.RegisterReadAfterWrite : Prop :=
  ∀ (s : State) (v : Byte),
    let reads := fun l => (memRead l (storeLoc l v s)).1
    let was := fun l => (memRead l s).1
    let waits := v.getLsbD 0 = true ∧ v.getLsbD 4 = false ∧ (s.usb.misc.request = true → 0 < s.gap.request.left)
    reads .mp0 = v ||| 0x80#8 ∧ reads .mp1 = v ||| 0x80#8 ∧ reads .bp = v &&& 0x01#8 ∧ reads .acc = v ∧
      reads .pcl = v ∧ reads .tblp = v ∧ reads .tblh = was .tblh ∧ reads .wdts = (v &&& 0x07#8) ||| 0x80#8 ∧
      reads .status = (v &&& 0x0F#8) ||| (was .status &&& 0x30#8) ∧ reads .intc = v &&& 0x5B#8 ∧
      reads .tmrl = v ∧ reads .tmrc = v &&& 0xD8#8 ∧ reads .pac = v ∧ reads .pbc &&& 0x9C#8 = v &&& 0x9C#8 ∧
      reads .usr = v ∧ reads .scc = v ∧ reads .tbhp = v &&& 0x07#8 ∧ reads .reserved = 0x00#8 ∧
      reads .pipeCtrl = v ∧ reads .awr = v ∧ reads .stall = v ∧ reads .pipe = was .pipe ∧
      reads .sies = (v &&& 0xA7#8) ||| (was .sies &&& 0x58#8) ∧
      (¬waits → reads .misc &&& 0xBF#8 = v &&& 0xBF#8) ∧ (waits → reads .misc = s.drawByte 0)

/-- A read has no side effect but these: TMRH latches the low byte of the counter into the byte buffer, a FIFO register
takes a byte from its own FIFO (and clears Len0 if it is FIFO 0, and starts the 2 µs wait between reading actions), and
a value that is free counts a draw, at a FIFO register at most two (20_memory.md R107, R114). How many draws a read
counts is the model's choice (log 8), and so are the wait and the second draw of a FIFO read (log 22). -/
def Obligations.ReadSideEffects : Prop :=
  ∀ (l : Loc) (s : State),
    let t := (memRead l s).2
    ((∀ k, l ≠ .fifo k) → l ≠ .tmrh →
      t = s.addDraws (t.draws - s.draws) ∧ s.draws ≤ t.draws ∧ t.draws ≤ s.draws + 1 ∧
        (l = .pb ∨ l = .pbc ∨ l = .usc ∨ l = .unmapped → t = s.addDraws 1) ∧
        (l ≠ .pb → l ≠ .pbc → l ≠ .usc → l ≠ .misc → l ≠ .unmapped → t = s)) ∧
    (l = .tmrh → t = { s with timer := { s.timer with buf := BitVec.ofNat 8 s.timer.cnt.toNat } }) ∧
    (∀ k, l = .fifo k →
      t = { s with usb := t.usb, gap := t.gap, draws := t.draws } ∧ s.draws ≤ t.draws ∧ t.draws ≤ s.draws + 2 ∧
        (t.usb = s.usb ∨ t.usb = s.usb.readAction k ∨ t.usb = (s.usb.readAction k).setFifo k (s.usb.fifo k).pop) ∧
        (t.gap = s.gap ∨ t.gap = { s.gap with read := { left := fifoGap s.config, fresh := true } }) ∧
        ∀ j, j ≠ k → t.usb.fifo j = s.usb.fifo j)

/-- Loading PCL jumps inside the 256-word page of the incremented PC, in one more cycle; PCL reads the low byte of the
incremented PC (10_state.md R25). -/
def Obligations.PclLoadJumpsInPage : Prop :=
  ∀ (s : State) (v : Byte),
    (memRead .pcl s).1.toNat = s.pc.toNat % 256 ∧ (memRead .pcl s).2 = s ∧
      (storeLoc .pcl v s).pc.toNat = 256 * (s.pc.toNat / 256) + v.toNat ∧
      storeLoc .pcl v s = (s.setPc (storeLoc .pcl v s).pc).addCycles 1

/-! ## Frames of all instructions -/

/-- Every byte of RAM is unchanged but the one at the resolved destination of an instruction whose destination is `[m]`;
every byte of program memory is unchanged (each instruction's operation; 20_memory.md R111, R117). -/
def Obligations.MemoryFrame : Prop :=
  ∀ (i : Instr) (s t : State), s.ram.wf = true → exec i s = .next t →
    (∀ a, (∀ m b, i.dest = some m → ea m s = .ram b → a ≠ b.toNat) → t.ram.read a = s.ram.read a) ∧
      ∀ a, t.rom.read a = s.rom.read a

/-- Every register is unchanged but the destination, and these: the accumulator of the instructions that write it, the
stack of CALL and the returns, EMI of RETI, TBLH of the table reads, the timer's byte buffer when TMRH is read and what
a write of TMRH or TMRC does to the timer, PIPE when USR is written, the device address when AWR is, the FIFOs when MISC
is, the FIFO that is accessed with Len0, and the watchdog and the halted state of the CLR WDT group and HALT (each
instruction's operation; 20_memory.md R107, R108, R114). -/
def Obligations.RegisterFrame : Prop :=
  ∀ (i : Instr) (s t : State), exec i s = .next t →
    let writes := fun l => ∃ m, i.dest = some m ∧ ea m s = l
    let reads := fun l => ∃ m, i.operand = some m ∧ ea m s = l
    (i.writesAcc = false → ¬writes .acc → t.acc = s.acc) ∧
      (¬writes .mp0 → t.mp0 = s.mp0) ∧ (¬writes .mp1 → t.mp1 = s.mp1) ∧ (¬writes .bp → t.bp = s.bp) ∧
      (¬writes .tblp → t.tblp = s.tblp) ∧ (¬writes .tbhp → t.tbhp = s.tbhp) ∧
      ((∀ m, i ≠ .tabrdcM m) → (∀ m, i ≠ .tabrdlM m) → t.tblh = s.tblh) ∧
      ((∀ a, i ≠ .call a) → i ≠ .ret → (∀ x, i ≠ .retAx x) → i ≠ .reti → t.stk = s.stk) ∧
      (¬writes .intc → i ≠ .reti → t.intc = s.intc) ∧
      (¬writes .tmrc → t.timer.ctl = s.timer.ctl ∧ t.timer.pwRun = s.timer.pwRun) ∧
      (¬writes .tmrh → t.timer.cnt = s.timer.cnt ∧ t.timer.pre = s.timer.pre) ∧
      (¬writes .tmrl → ¬reads .tmrh → t.timer.buf = s.timer.buf) ∧
      (¬writes .wdts → t.wdt.ws = s.wdt.ws) ∧
      (i.flagEffect ≠ .power → t.wdt.cnt = s.wdt.cnt ∧ t.wdt.pre = s.wdt.pre) ∧
      (¬writes .pa → t.ports.pa = s.ports.pa) ∧ (¬writes .pac → t.ports.pac = s.ports.pac) ∧
      (¬writes .pb → t.ports.pb = s.ports.pb) ∧ (¬writes .pbc → t.ports.pbc = s.ports.pbc) ∧
      t.ports.seenA = s.ports.seenA ∧ t.ports.seenB = s.ports.seenB ∧
      (¬writes .usc → t.usb.usc = s.usb.usc) ∧
      (¬writes .usr → t.usb.usr = s.usb.usr ∧ t.usb.pipe = s.usb.pipe) ∧ (¬writes .scc → t.usb.scc = s.usb.scc) ∧
      (¬writes .pipeCtrl → t.usb.pipeCtrl = s.usb.pipeCtrl) ∧
      (¬writes .awr → t.usb.awr = s.usb.awr ∧ t.usb.devAddr = s.usb.devAddr) ∧
      (¬writes .stall → t.usb.stall = s.usb.stall) ∧ (¬writes .sies → t.usb.sies = s.usb.sies) ∧
      (¬writes .misc → t.usb.misc = { s.usb.misc with len0 := t.usb.misc.len0 } ∧
        (¬reads (.fifo .ep0) → t.usb.misc.len0 = s.usb.misc.len0)) ∧
      (∀ k, ¬writes .misc → ¬reads (.fifo k) → t.usb.fifo k = s.usb.fifo k) ∧
      (∀ k, (t.usb.fifo k).busy = (s.usb.fifo k).busy) ∧
      (i ≠ .halt → t.halt = s.halt) ∧ t.config = s.config ∧ t.env = s.env

/-- Who writes the flags: C, AC, Z and OV the arithmetic instructions; Z alone the logic, complement, increment and
decrement instructions; C alone DAA and the rotates through carry; TO and PDF the CLR WDT group and HALT; and a write of
STATUS by an instruction that sets no flag, which never changes TO and PDF. Every other instruction changes none
(10_state.md R39, R57). -/
def Obligations.FlagFrame : Prop :=
  ∀ (i : Instr) (s t : State), exec i s = .next t →
    let writesStatus := ∃ m, i.dest = some m ∧ ea m s = .status
    (i.flagEffect ≠ .power → t.flags.timeout = s.flags.timeout ∧ t.flags.pdf = s.flags.pdf) ∧
      (¬writesStatus →
        (i.flagEffect ≠ .arith → i.flagEffect ≠ .carry → t.flags.c = s.flags.c) ∧
        (i.flagEffect ≠ .arith → i.flagEffect ≠ .zero → t.flags.z = s.flags.z) ∧
        (i.flagEffect ≠ .arith → t.flags.ac = s.flags.ac ∧ t.flags.ov = s.flags.ov)) ∧
      (writesStatus → i.flagEffect = .none)

/-! ## Arithmetic -/

/-- ADD A,[m], ADC A,[m], SUB A,[m] and SBC A,[m] (40_arithmetic.md R201, R204, R207, R209). The words are those of the
default encoding, which the spec gives from general knowledge (log 1). -/
def Obligations.AddAndSubtractToAcc : Prop :=
  ∀ m : DataAddr,
    Accumulates (.addAM m) m (fun s v r g => IsSum s.flags s.acc v false r g) ∧
    Accumulates (.adcAM m) m (fun s v r g => IsSum s.flags s.acc v s.flags.c r g) ∧
    Accumulates (.subAM m) m (fun s v r g => IsSum s.flags s.acc (not8 v) true r g) ∧
    Accumulates (.sbcAM m) m (fun s v r g => IsSum s.flags s.acc (not8 v) s.flags.c r g) ∧
    (encode (.addAM m)).toNat = 0x0300 + m.toNat ∧ (encode (.adcAM m)).toNat = 0x1300 + m.toNat ∧
    (encode (.subAM m)).toNat = 0x0200 + m.toNat ∧ (encode (.sbcAM m)).toNat = 0x1200 + m.toNat

/-- ADDM A,[m], ADCM A,[m], SUBM A,[m] and SBCM A,[m] (40_arithmetic.md R202, R205, R208, R210, R213). The words are
those of the default encoding, which the spec gives from general knowledge (log 1). -/
def Obligations.AddAndSubtractToMemory : Prop :=
  ∀ m : DataAddr,
    Modifies (.addmAM m) m (fun s v r g => IsSum s.flags s.acc v false r g) ∧
    Modifies (.adcmAM m) m (fun s v r g => IsSum s.flags s.acc v s.flags.c r g) ∧
    Modifies (.submAM m) m (fun s v r g => IsSum s.flags s.acc (not8 v) true r g) ∧
    Modifies (.sbcmAM m) m (fun s v r g => IsSum s.flags s.acc (not8 v) s.flags.c r g) ∧
    (encode (.addmAM m)).toNat = 0x0380 + m.toNat ∧ (encode (.adcmAM m)).toNat = 0x1380 + m.toNat ∧
    (encode (.submAM m)).toNat = 0x0280 + m.toNat ∧ (encode (.sbcmAM m)).toNat = 0x1280 + m.toNat

/-- ADD A,x, SUB A,x, AND A,x, OR A,x and XOR A,x (40_arithmetic.md R203, R206; 41_logic.md R227, R228, R229). The words
are those of the default encoding, which the spec gives from general knowledge (log 1). -/
def Obligations.ImmediateForms : Prop :=
  ∀ (x : Byte) (s : State),
    let after := fun r : Byte =>
      { s with acc := r, flags := { s.flags with z := decide (r.toNat = 0) }, cyc := s.cyc + 1 }
    (∃ r g, IsSum s.flags s.acc x false r g ∧
      exec (.addAx x) s = .next { s with acc := r, flags := g, cyc := s.cyc + 1 }) ∧
    (∃ r g, IsSum s.flags s.acc (not8 x) true r g ∧
      exec (.subAx x) s = .next { s with acc := r, flags := g, cyc := s.cyc + 1 }) ∧
    (encode (.addAx x)).toNat = 0x0B00 + x.toNat ∧ (encode (.subAx x)).toNat = 0x0A00 + x.toNat ∧
    exec (.andAx x) s = .next (after (s.acc &&& x)) ∧ exec (.orAx x) s = .next (after (s.acc ||| x)) ∧
    exec (.xorAx x) s = .next (after (s.acc ^^^ x)) ∧ (encode (.andAx x)).toNat = 0x0E00 + x.toNat ∧
    (encode (.orAx x)).toNat = 0x0D00 + x.toNat ∧ (encode (.xorAx x)).toNat = 0x0C00 + x.toNat

/-- DAA [m]: the adjusted accumulator goes to `[m]`; only C may be affected, and it is never cleared (40_arithmetic.md
R211). The read of `[m]` that it performs follows 20_memory.md R109 (log 17). The words are those of the default
encoding, which the spec gives from general knowledge (log 1). -/
def Obligations.DecimalAdjust : Prop :=
  ∀ m : DataAddr, (encode (.daaM m)).toNat = 0x1E80 + m.toNat ∧
    Modifies (.daaM m) m fun s _ r g =>
      let lo := s.acc.toNat % 16
      let hi := s.acc.toNat / 16
      let ac1 := if 9 < lo then 1 else 0
      (r.toNat % 16 = if 9 < lo ∨ s.flags.ac = true then (lo + 6) % 16 else lo) ∧
        (r.toNat / 16 = if 9 < hi + ac1 ∨ s.flags.c = true then (hi + 6 + ac1) % 16 else (hi + ac1) % 16) ∧
        (g.c = true ↔ 9 < hi + ac1 ∨ s.flags.c = true) ∧
        g = { s.flags with c := g.c }

/-- What the adder gives and what its flags mean. The result of an addition is the sum modulo 256, C is the carry out of
bit 7, AC the carry out of bit 3, Z the zero test, and OV says that the sum of the two's complement operands does not
fit. The result of SUB and SBC is the difference modulo 256, C is "no borrow", AC is "no borrow from bit 4 into bit 3",
and OV says that the difference does not fit; the borrow that SBC takes in is C = 0. TO and PDF are kept (00_scope.md
R14, 40_arithmetic.md R200). -/
def Obligations.SumsAndDifferences : Prop :=
  ∀ (f : Flags) (a b : Byte) (cin : Bool),
    let isDifference := fun (borrow : Int) (q : Byte × Flags) =>
      (q.1.toNat : Int) = ((a.toNat : Int) - b.toNat - borrow) % 256 ∧
        (q.2.c = true ↔ (0 : Int) ≤ (a.toNat : Int) - b.toNat - borrow) ∧
        (q.2.ac = true ↔ (0 : Int) ≤ (a.toNat % 16 : Int) - b.toNat % 16 - borrow) ∧
        (q.2.ov = true ↔ a.toInt - b.toInt - borrow < -128 ∨ 127 < a.toInt - b.toInt - borrow) ∧
        (q.2.z = true ↔ q.1.toNat = 0) ∧ q.2.pdf = f.pdf ∧ q.2.timeout = f.timeout
    IsSum f a b cin (add8 f a b cin).1 (add8 f a b cin).2 ∧
      ((add8 f a b cin).2.ov = true ↔
        a.toInt + b.toInt + (cin.toNat : Int) < -128 ∨ 127 < a.toInt + b.toInt + (cin.toNat : Int)) ∧
      isDifference 0 (sub8 f a b) ∧ isDifference (if f.c = true then 0 else 1) (sbc8 f a b)

/-- ADD followed by DAA adds packed BCD: for two bytes of decimal digits the adjusted byte holds the digits of the sum
modulo 100, and C says that the sum is 100 or more (40_arithmetic.md R201, R211). -/
def Obligations.DecimalAdditionIsCorrect : Prop :=
  ∀ (f g : Flags) (a b r : Byte), IsSum f a b false r g →
    a.toNat % 16 ≤ 9 → a.toNat / 16 ≤ 9 → b.toNat % 16 ≤ 9 → b.toNat / 16 ≤ 9 →
    let sum := (10 * (a.toNat / 16) + a.toNat % 16) + (10 * (b.toNat / 16) + b.toNat % 16)
    (decimalAdjust g r).1.toNat = 16 * (sum % 100 / 10) + sum % 10 ∧
      ((decimalAdjust g r).2.c = true ↔ 100 ≤ sum)

/-! ## Logic, increment, decrement, rotates -/

/-- AND, OR, XOR A,[m] and CPLA [m] into ACC, ANDM, ORM, XORM A,[m] and CPL [m] into `[m]`: Z takes the zero test of the
result, no other flag changes (41_logic.md R220 to R226, R230, R231). The words are those of the default encoding, which
the spec gives from general knowledge (log 1). -/
def Obligations.Logic : Prop :=
  ∀ m : DataAddr,
    let result := fun (op : Byte → Byte → Byte) (s : State) (v r : Byte) (g : Flags) =>
      r = op s.acc v ∧ g = { s.flags with z := decide (r.toNat = 0) }
    Accumulates (.andAM m) m (result fun a v => a &&& v) ∧ Accumulates (.orAM m) m (result fun a v => a ||| v) ∧
    Accumulates (.xorAM m) m (result fun a v => a ^^^ v) ∧ Accumulates (.cplaM m) m (result fun _ v => not8 v) ∧
    (encode (.andAM m)).toNat = 0x0600 + m.toNat ∧ (encode (.orAM m)).toNat = 0x0500 + m.toNat ∧
    (encode (.xorAM m)).toNat = 0x0400 + m.toNat ∧ (encode (.cplaM m)).toNat = 0x0100 + m.toNat ∧
    Modifies (.andmAM m) m (result fun a v => a &&& v) ∧ Modifies (.ormAM m) m (result fun a v => a ||| v) ∧
    Modifies (.xormAM m) m (result fun a v => a ^^^ v) ∧ Modifies (.cplM m) m (result fun _ v => not8 v) ∧
    (encode (.andmAM m)).toNat = 0x0680 + m.toNat ∧ (encode (.ormAM m)).toNat = 0x0580 + m.toNat ∧
    (encode (.xormAM m)).toNat = 0x0480 + m.toNat ∧ (encode (.cplM m)).toNat = 0x0180 + m.toNat

/-- INCA, DECA, INC and DEC: modulo 256, Z alone (42_incdec_rotate.md R240 to R244). The words are those of the default
encoding, which the spec gives from general knowledge (log 1). -/
def Obligations.IncrementAndDecrement : Prop :=
  ∀ m : DataAddr,
    let up := fun (s : State) (v r : Byte) (g : Flags) =>
      r.toNat = (v.toNat + 1) % 256 ∧ g = { s.flags with z := decide (r.toNat = 0) }
    let down := fun (s : State) (v r : Byte) (g : Flags) =>
      r.toNat = (v.toNat + 255) % 256 ∧ g = { s.flags with z := decide (r.toNat = 0) }
    Accumulates (.incaM m) m up ∧ Modifies (.incM m) m up ∧ Accumulates (.decaM m) m down ∧
    Modifies (.decM m) m down ∧ (encode (.incaM m)).toNat = 0x1400 + m.toNat ∧
    (encode (.incM m)).toNat = 0x1480 + m.toNat ∧ (encode (.decaM m)).toNat = 0x1500 + m.toNat ∧
    (encode (.decM m)).toNat = 0x1580 + m.toNat

/-- RRA, RR, RLA and RL rotate the eight bits among themselves and change no flag; RRCA, RRC, RLCA and RLC rotate the
byte and C together and change no other flag (42_incdec_rotate.md R245 to R253). The words are those of the default
encoding, which the spec gives from general knowledge (log 1). -/
def Obligations.Rotates : Prop :=
  ∀ m : DataAddr,
    let right := fun v r : Byte => (∀ j, j < 7 → r.getLsbD j = v.getLsbD (j + 1)) ∧ r.getLsbD 7 = v.getLsbD 0
    let left := fun v r : Byte => (∀ j, j < 7 → r.getLsbD (j + 1) = v.getLsbD j) ∧ r.getLsbD 0 = v.getLsbD 7
    let rightCarry := fun (s : State) (v r : Byte) (g : Flags) =>
      (∀ j, j < 7 → r.getLsbD j = v.getLsbD (j + 1)) ∧ r.getLsbD 7 = s.flags.c ∧
        g = { s.flags with c := v.getLsbD 0 }
    let leftCarry := fun (s : State) (v r : Byte) (g : Flags) =>
      (∀ j, j < 7 → r.getLsbD (j + 1) = v.getLsbD j) ∧ r.getLsbD 0 = s.flags.c ∧
        g = { s.flags with c := v.getLsbD 7 }
    Accumulates (.rraM m) m (fun s v r g => right v r ∧ g = s.flags) ∧ ModifiesPlainly (.rrM m) m right ∧
    Accumulates (.rlaM m) m (fun s v r g => left v r ∧ g = s.flags) ∧ ModifiesPlainly (.rlM m) m left ∧
    (encode (.rraM m)).toNat = 0x1900 + m.toNat ∧ (encode (.rrM m)).toNat = 0x1980 + m.toNat ∧
    (encode (.rlaM m)).toNat = 0x1800 + m.toNat ∧ (encode (.rlM m)).toNat = 0x1880 + m.toNat ∧
    Accumulates (.rrcaM m) m rightCarry ∧ Modifies (.rrcM m) m rightCarry ∧ Accumulates (.rlcaM m) m leftCarry ∧
    Modifies (.rlcM m) m leftCarry ∧ (encode (.rrcaM m)).toNat = 0x1B00 + m.toNat ∧
    (encode (.rrcM m)).toNat = 0x1B80 + m.toNat ∧ (encode (.rlcaM m)).toNat = 0x1A00 + m.toNat ∧
    (encode (.rlcM m)).toNat = 0x1A80 + m.toNat

/-! ## Moves, bits, stores, table reads -/

/-- MOV A,[m], MOV [m],A and MOV A,x: one byte moved, no flag changed (43_move_bit.md R260, R261, R262, R265). The words
are those of the default encoding, which the spec gives from general knowledge (log 1). -/
def Obligations.Moves : Prop :=
  (∀ m : DataAddr,
    Accumulates (.movAM m) m (fun s v r g => r = v ∧ g = s.flags) ∧
    Stores (.movMA m) m (fun s => s.acc) (fun s => s) 1 ∧
    (encode (.movAM m)).toNat = 0x0700 + m.toNat ∧ (encode (.movMA m)).toNat = 0x0080 + m.toNat) ∧
  ∀ (x : Byte) (s : State), exec (.movAx x) s = .next { s with acc := x, cyc := s.cyc + 1 } ∧
    (encode (.movAx x)).toNat = 0x0F00 + x.toNat

/-- CLR [m].i, SET [m].i and SWAP [m] read the whole byte and write it back with the one bit changed or the nibbles
interchanged; no flag changes (43_move_bit.md R263, R264, R265; 45_table_misc.md R316). The words are those of the
default encoding, which the spec gives from general knowledge (log 1). -/
def Obligations.BitAndSwapInMemory : Prop :=
  ∀ (m : DataAddr) (i : BitVec 3),
    ModifiesPlainly (.clrBit m i) m
      (fun v r => ∀ j, j < 8 → r.getLsbD j = if j = i.toNat then false else v.getLsbD j) ∧
    ModifiesPlainly (.setBit m i) m
      (fun v r => ∀ j, j < 8 → r.getLsbD j = if j = i.toNat then true else v.getLsbD j) ∧
    ModifiesPlainly (.swapM m) m (fun v r => r.toNat = 16 * (v.toNat % 16) + v.toNat / 16) ∧
    (encode (.clrBit m i)).toNat = 0x3400 + 128 * i.toNat + m.toNat ∧
    (encode (.setBit m i)).toNat = 0x3000 + 128 * i.toNat + m.toNat ∧
    (encode (.swapM m)).toNat = 0x1180 + m.toNat

/-- NOP, CLR [m], SET [m] and SWAPA [m]; CLR and SET write without reading, none changes a flag (45_table_misc.md R310,
R311, R312, R317). The words are those of the default encoding, which the spec gives from general knowledge (log 1). -/
def Obligations.NopClearSetSwapa : Prop :=
  (∀ s : State, exec .nop s = .next { s with cyc := s.cyc + 1 }) ∧ encode .nop = 0x0000#14 ∧
  ∀ m : DataAddr,
    Stores (.clrM m) m (fun _ => 0x00#8) (fun s => s) 1 ∧ Stores (.setM m) m (fun _ => 0xFF#8) (fun s => s) 1 ∧
    Accumulates (.swapaM m) m (fun s v r g => r.toNat = 16 * (v.toNat % 16) + v.toNat / 16 ∧ g = s.flags) ∧
    (encode (.clrM m)).toNat = 0x1F00 + m.toNat ∧ (encode (.setM m)).toNat = 0x1F80 + m.toNat ∧
    (encode (.swapaM m)).toNat = 0x1100 + m.toNat

/-- TABRDC [m] and TABRDL [m]: the word at the table address is split, its low byte to `[m]`, its upper six bits to
TBLH, whose bits 7 and 6 become 0; two cycles, no flag changed (45_table_misc.md R300 to R304). The words are those of
the default encoding, which the spec gives from general knowledge (log 1). -/
def Obligations.TableReads : Prop :=
  ∀ m : DataAddr,
    let address := fun (high : BitVec 3) (s : State) => BitVec.ofNat 11 (256 * high.toNat + s.tblp.toNat)
    let current := fun s : State =>
      address (if s.config.tbhpEnable = true then s.tbhp else BitVec.ofNat 3 (s.pc.toNat / 256)) s
    let last := fun s : State => address 7#3 s
    let low := fun (a : State → ProgAddr) (s : State) => BitVec.ofNat 8 (s.romWord (a s)).toNat
    let high := fun (a : State → ProgAddr) (s : State) =>
      { s with tblh := BitVec.ofNat 7 ((s.romWord (a s)).toNat / 256) }
    Stores (.tabrdcM m) m (low current) (high current) 2 ∧ Stores (.tabrdlM m) m (low last) (high last) 2 ∧
    (encode (.tabrdcM m)).toNat = 0x1D00 + m.toNat ∧ (encode (.tabrdlM m)).toNat = 0x1D80 + m.toNat

/-! ## Jumps, skips, calls, returns -/

/-- JMP, CALL and the returns take two cycles and change no flag. CALL pushes the incremented PC, and with four entries
on the stack the oldest is lost. RET, RET A,x and RETI pop PC; RET A,x loads ACC, RETI sets EMI; with the stack empty
each is refused (44_branch.md R272, R281 to R284; 10_state.md R27, R28). The words are those of the default encoding,
which the spec gives from general knowledge (log 1). -/
def Obligations.JumpCallReturn : Prop :=
  ∀ (a : ProgAddr) (s : State) (x : Byte),
    exec (.jmp a) s = .next { s with pc := a, cyc := s.cyc + 2 } ∧
    (s.stk.length < 4 → exec (.call a) s = .next { s with pc := a, stk := s.pc :: s.stk, cyc := s.cyc + 2 }) ∧
    (∀ w x y z, s.stk = [w, x, y, z] →
      exec (.call a) s = .next { s with pc := a, stk := [s.pc, w, x, y], cyc := s.cyc + 2 }) ∧
    (encode (.jmp a)).toNat = 0x2800 + a.toNat ∧ (encode (.call a)).toNat = 0x2000 + a.toNat ∧
    (∀ b rest, s.stk = b :: rest →
      exec .ret s = .next { s with pc := b, stk := rest, cyc := s.cyc + 2 } ∧
      exec (.retAx x) s = .next { s with pc := b, stk := rest, acc := x, cyc := s.cyc + 2 } ∧
      exec .reti s = .next { s with pc := b, stk := rest, intc := { s.intc with emi := true }, cyc := s.cyc + 2 }) ∧
    (s.stk = [] → exec .ret s = .refused .stackUnderflow ∧ exec (.retAx x) s = .refused .stackUnderflow ∧
      exec .reti s = .refused .stackUnderflow) ∧
    encode .ret = 0x0003#14 ∧ encode .reti = 0x0004#14 ∧ (encode (.retAx x)).toNat = 0x0900 + x.toNat

/-- The skips. SZ [m], SZ [m].i and SNZ [m].i test the byte read. SZA, SIZA and SDZA put the byte into ACC whether or
not the skip is taken. SIZ and SDZ store the byte and test the 8-bit result computed, not what a narrower register
stores. No flag changes (44_branch.md R271, R273 to R280). The words are those of the default encoding, which the spec
gives from general knowledge (log 1). -/
def Obligations.Skips : Prop :=
  ∀ (m : DataAddr) (i : BitVec 3),
    TestsAndSkips (.szM m) m (fun v => v.toNat = 0) ∧
    TestsAndSkips (.szBit m i) m (fun v => v.getLsbD i.toNat = false) ∧
    TestsAndSkips (.snzBit m i) m (fun v => v.getLsbD i.toNat = true) ∧
    (encode (.szM m)).toNat = 0x1080 + m.toNat ∧ (encode (.szBit m i)).toNat = 0x3C00 + 128 * i.toNat + m.toNat ∧
    (encode (.snzBit m i)).toNat = 0x3800 + 128 * i.toNat + m.toNat ∧
    LoadsAndSkips (.szaM m) m (fun v r => r = v) ∧
    LoadsAndSkips (.sizaM m) m (fun v r => r.toNat = (v.toNat + 1) % 256) ∧
    LoadsAndSkips (.sdzaM m) m (fun v r => r.toNat = (v.toNat + 255) % 256) ∧
    (encode (.szaM m)).toNat = 0x1000 + m.toNat ∧ (encode (.sizaM m)).toNat = 0x1600 + m.toNat ∧
    (encode (.sdzaM m)).toNat = 0x1700 + m.toNat ∧
    CountsAndSkips (.sizM m) m (fun v r => r.toNat = (v.toNat + 1) % 256) ∧
    CountsAndSkips (.sdzM m) m (fun v r => r.toNat = (v.toNat + 255) % 256) ∧
    (encode (.sizM m)).toNat = 0x1680 + m.toNat ∧ (encode (.sdzM m)).toNat = 0x1780 + m.toNat

/-! ## Ports, USB and PS2 -/

/-- A read of a port gives, per line, the pad of an input line and the latch of an output line, and has no side effect
but the draw of port B's missing bits; a write stores the latch whatever the control bits are (62_ports_usb_ps2.md R501,
R502, R505). A write of USC stores RMOT_WK, URST_FLAG, PS2_DAO and PS2_CKO; a read gives SUSPEND, URST_FLAG and
RESUME_O, free values in the write-only bits, and with PS2 (or USB) alone selected the input bits are 0 while their
output bit is 0, else the pads (R510, R516). That they follow the same formula with USB selected is the model's choice
(log 18). -/
def Obligations.PortAndUscAccess : Prop :=
  ∀ (s : State) (v : Byte),
    let b := (memRead .usc s).1
    (∀ i, i < 8 → (memRead .pa s).1.getLsbD i =
      if s.ports.pac.getLsbD i = true then s.env.pads.pa.getLsbD i else s.ports.pa.getLsbD i) ∧
    (memRead .pa s).2 = s ∧
    (∀ i, i < 8 → (memRead .pb s).1.getLsbD i =
      if i = 2 ∨ i = 3 ∨ i = 4 ∨ i = 7 then
        if s.ports.pbc.getLsbD i = true then s.env.pads.pb.getLsbD i else s.ports.pb.getLsbD i
      else (s.drawByte 0).getLsbD i) ∧
    (memRead .pb s).2 = s.addDraws 1 ∧
    storeLoc .pa v s = s.setPorts { s.ports with pa := v } ∧ storeLoc .pac v s = s.setPorts { s.ports with pac := v } ∧
    storeLoc .pb v s = s.setPorts { s.ports with pb := v &&& 0x9C#8 } ∧
    storeLoc .pbc v s = s.setPorts { s.ports with pbc := v &&& 0x9C#8 } ∧
    b.getLsbD 0 = s.usb.usc.suspend ∧ b.getLsbD 2 = s.usb.usc.urstFlag ∧ b.getLsbD 3 = s.usb.usc.resumeO ∧
      b.getLsbD 1 = (s.drawByte 0).getLsbD 1 ∧ b.getLsbD 6 = (s.drawByte 0).getLsbD 6 ∧
      b.getLsbD 7 = (s.drawByte 0).getLsbD 7 ∧
      (s.usb.usr.getLsbD 4 ≠ s.usb.usr.getLsbD 5 →
        (b.getLsbD 4 = if s.usb.usc.ps2Dao = false then false else s.env.pads.data) ∧
        (b.getLsbD 5 = if s.usb.usc.ps2Cko = false then false else s.env.pads.clk)) ∧
      (s.usb.usr.getLsbD 4 = s.usb.usr.getLsbD 5 →
        b.getLsbD 4 = (s.drawByte 0).getLsbD 4 ∧ b.getLsbD 5 = (s.drawByte 0).getLsbD 5) ∧
      storeLoc .usc v s = s.setUsb { s.usb with
        usc := { s.usb.usc with
          rmotWk := v.getLsbD 1, urstFlag := v.getLsbD 2, ps2Dao := v.getLsbD 6, ps2Cko := v.getLsbD 7 } }

/-- An access of endpoint `k` with EPkIF = 0 sets EPkIF, PIPE bit `k` and USBF; with EPkIF = 1 it raises nothing, and
changes nothing at all but for a SETUP to endpoint 0, of which nothing is missed; a NAKed token raises nothing while MNI
= 1. The packet's marks: a SETUP sets Set CMD and clears Len0, OUT and IN, an OUT packet with bytes sets OUT, one
without bytes sets Len0, an IN sets IN, a NAK sets NAK; Set CMD and Len0 only for endpoint 0. The program clears EPkIF,
and PIPE bit `k` with it, by writing 0, and writing 1 makes no request (62_ports_usb_ps2.md R517, R545, R547, R549;
10_state.md R54, R55). That nothing else is taken while EPkIF is 1, and what each packet does to the FIFO and to IN, is
the model's choice (log 23). -/
def Obligations.EndpointAccess : Prop :=
  ∀ (s : State) (k : Endpoint) (p : Packet),
    let n := k.bit.toNat
    let t := s.usbAccess k p
    (s.usb.usr.getLsbD n = true → (k = .ep1 ∨ ∀ bytes, p ≠ .setup bytes) → t = s) ∧
    (s.usb.usr.getLsbD n = true → t.intc = s.intc ∧ t.usb.usr = s.usb.usr ∧ t.usb.pipe = s.usb.pipe) ∧
    (s.usb.usr.getLsbD n = false → (p ≠ .naked ∨ s.usb.sies.getLsbD 7 = false) →
      t.intc = { s.intc with usbf := true } ∧
        ∀ i, i < 8 → t.usb.usr.getLsbD i = (decide (i = n) || s.usb.usr.getLsbD i) ∧
          t.usb.pipe.getLsbD i = (decide (i = n) || s.usb.pipe.getLsbD i)) ∧
    (s.usb.usr.getLsbD n = false → p = .naked → s.usb.sies.getLsbD 7 = true →
      t.intc = s.intc ∧ t.usb.usr = s.usb.usr) ∧
    (k = .ep1 → t.usb.misc = s.usb.misc) ∧
    (∀ bytes, k = .ep0 → p = .setup bytes →
      t.usb.misc = { s.usb.misc with setCmd := true, len0 := false } ∧ t.usb.sies.getLsbD 2 = false ∧
        t.usb.sies.getLsbD 3 = false ∧ (t.usb.fifo k).bytes = bytes.take 8 ∧ (t.usb.fifo k).mark = .fromHost) ∧
    (s.usb.usr.getLsbD n = false →
      (∀ b bytes, p = .out (b :: bytes) →
        t.usb.misc = s.usb.misc ∧ t.usb.sies.getLsbD 2 = true ∧ t.usb.sies.getLsbD 3 = false ∧
          (t.usb.fifo k).bytes = (b :: bytes).take 8 ∧ (t.usb.fifo k).mark = .fromHost) ∧
      (p = .outZero ∨ p = .out [] → t.usb.misc.setCmd = s.usb.misc.setCmd ∧ (k = .ep0 → t.usb.misc.len0 = true) ∧
        t.usb.sies.getLsbD 2 = s.usb.sies.getLsbD 2 ∧ t.usb.sies.getLsbD 3 = false ∧ (t.usb.fifo k).bytes = []) ∧
      (p = .inTaken → t.usb.misc = s.usb.misc ∧ t.usb.sies.getLsbD 3 = true ∧ (t.usb.fifo k).bytes = []) ∧
      (p = .naked → t.usb.misc = s.usb.misc ∧ t.usb.sies.getLsbD 4 = true ∧ t.usb.fifo k = s.usb.fifo k)) ∧
    (∀ j, j ≠ k → t.usb.fifo j = s.usb.fifo j) ∧
    ∀ v : Byte, (storeLoc .usr v s).usb.usr = v ∧ (storeLoc .usr v s).intc = s.intc ∧
      (s.usb.usr.getLsbD n = true → v.getLsbD n = false → (storeLoc .usr v s).usb.pipe.getLsbD n = false)

/-- The FIFO registers with the 2 µs waits kept: a read under an open read request of a ready FIFO removes and returns
its first byte, a write under an open write request of a ready FIFO appends its byte, and each starts the wait of its
direction. Without such a request or with Ready = 0 a read gives a free value and takes nothing, and a write is lost;
sooner than the wait a read gives a free value and a write is lost. A read of FIFO 0 under an open read request clears
Len0. A wait is 6 instruction cycles at 12 MHz and 3 at 6 MHz; the one before Ready starts at the write of MISC that
sets Request; each instruction takes its cycles from every wait but one it started itself (62_ports_usb_ps2.md R541,
R543, R545, R546). When a wait starts and ends, that a reset and a wake-up end it and an interrupt entry does not
shorten it, and that a write too soon is always lost, is the model's choice (log 22), and so is which read clears Len0
(log 23). -/
def Obligations.FifoReadAndWrite : Prop :=
  ∀ (s : State) (k : Endpoint) (v : Byte),
    (s.usb.openFor k false = true → s.usb.ready = true →
      (s.gap.request.left = 0 → s.gap.read.left = 0 →
        ∃ b rest, (s.usb.fifo k).bytes = b :: rest ∧ (memRead (.fifo k) s).1 = b ∧
          ((memRead (.fifo k) s).2.usb.fifo k).bytes = rest) ∧
      (0 < s.gap.request.left ∨ 0 < s.gap.read.left → (memRead (.fifo k) s).1 = s.drawByte 0) ∧
      (memRead (.fifo k) s).2.gap = { s.gap with read := { left := fifoGap s.config, fresh := true } }) ∧
    (s.usb.openFor k true = true → s.usb.ready = true →
      (s.gap.request.left = 0 → s.gap.write.left = 0 →
        ((storeLoc (.fifo k) v s).usb.fifo k).bytes = (s.usb.fifo k).bytes ++ [v]) ∧
      (0 < s.gap.request.left ∨ 0 < s.gap.write.left → (storeLoc (.fifo k) v s).usb = s.usb) ∧
      (storeLoc (.fifo k) v s).gap = { s.gap with write := { left := fifoGap s.config, fresh := true } }) ∧
    (s.usb.openFor k false = false → memRead (.fifo k) s = (s.drawByte 0, s.addDraws 1)) ∧
    (s.usb.openFor k false = true → s.usb.ready = false →
      (memRead (.fifo k) s).1 = s.drawByte 0 ∧ (memRead (.fifo k) s).2.usb.fifo k = s.usb.fifo k) ∧
    (s.usb.openFor k true = false ∨ s.usb.ready = false → storeLoc (.fifo k) v s = s) ∧
    (s.usb.openFor .ep0 false = true →
      (memRead (.fifo .ep0) s).2.usb.misc = { s.usb.misc with len0 := false }) ∧
    (memRead (.fifo .ep1) s).2.usb.misc = s.usb.misc ∧
    fifoGap s.config = (if s.config.fSys = .mhz12 then 6 else 3) ∧
    ((storeLoc .misc v s).gap =
      if s.usb.misc.request = false ∧ v.getLsbD 0 = true then
        { s.gap with request := { left := fifoGap s.config, fresh := true } }
      else s.gap) ∧
    (∀ (before : State) (n : Nat), s.cyc = before.cyc + n →
      let g := (countInstruction before s).gap
      let passes := fun c d : Countdown => d.left = (if c.fresh = true then c.left else c.left - n) ∧ d.fresh = false
      passes s.gap.request g.request ∧ passes s.gap.read g.read ∧ passes s.gap.write g.write) ∧
    (∀ r, (applyReset r s).gap = Gap.none) ∧ (s.halt.halted = true → s.wake.gap = Gap.none) ∧
    ∀ src, (enterInterrupt src s).gap = s.gap

/-- Ready of MISC: 0 without a request; under a read request 1 exactly while the selected FIFO holds a byte of the
host's and the host is not using it; under a write request never 1 after the eighth byte, nor while the host uses the
pipe; and a read of MISC shows it, but the whole byte is a free value sooner than 2 µs after the write that set Request
(62_ports_usb_ps2.md R541, R542, R546). The exact condition, in terms of the FIFO's direction mark, is the model's
choice (log 21), and so is when the wait runs and that it frees nothing while no FIFO is selected (log 22). -/
def Obligations.ReadyBit : Prop :=
  ∀ s : State,
    (s.usb.misc.request = false → s.usb.ready = false) ∧
    (s.usb.misc.sel1 = true → s.usb.ready = false) ∧
    (∀ k, s.usb.openFor k false = true →
      (s.usb.ready = true ↔
        (s.usb.fifo k).mark = .fromHost ∧ (s.usb.fifo k).busy = false ∧ (s.usb.fifo k).bytes ≠ [])) ∧
    (∀ k, s.usb.openFor k true = true → s.usb.ready = true →
      (s.usb.fifo k).busy = false ∧ (s.usb.fifo k).bytes.length < 8) ∧
    (s.usb.misc.request = false ∨ s.usb.misc.sel1 = true ∨ s.gap.request.left = 0 →
      (memRead .misc s).1.getLsbD 6 = s.usb.ready ∧ (memRead .misc s).2 = s) ∧
    (∀ k w, s.usb.openFor k w = true → 0 < s.gap.request.left → memRead .misc s = (s.drawByte 0, s.addDraws 1))

/-- A packet written byte by byte is what the commit hands to the SIE: with the write request open, flipping Tx keeps
the bytes that were written, in order, and marks them as the next IN packet; without a byte written it hands over the
packet of zero length; with a read request open it empties the FIFO and releases it to the host. Clear with a request
empties the FIFO it selects, ready or not, and without a request nothing is emptied (62_ports_usb_ps2.md R541, R544,
R545). That the empty packet also takes the place of a packet still handed over, or of unread bytes of the host, is the
model's choice, and so are the commit of the FIFO selected before a write that changes Sel_pipe, and the direction marks
(log 21). -/
def Obligations.CommitHandsOver : Prop :=
  ∀ (s : State) (k : Endpoint) (v : Byte),
    (v.getLsbD 0 = true → v.getLsbD 2 = false →
      (s.usb.openFor k true = true → v.getLsbD 1 = false → (s.usb.fifo k).mark = .filling →
        ((storeLoc .misc v s).usb.fifo k).bytes = (s.usb.fifo k).bytes ∧
          ((storeLoc .misc v s).usb.fifo k).mark = .handed) ∧
      (s.usb.openFor k true = true → v.getLsbD 1 = false → (s.usb.fifo k).mark ≠ .filling →
        ((storeLoc .misc v s).usb.fifo k).bytes = [] ∧ ((storeLoc .misc v s).usb.fifo k).mark = .handed) ∧
      (s.usb.openFor k false = true → v.getLsbD 1 = true →
        ((storeLoc .misc v s).usb.fifo k).bytes = [] ∧ ((storeLoc .misc v s).usb.fifo k).mark = .fromHost)) ∧
    (v.getLsbD 0 = true → v.getLsbD 2 = true → v.getLsbD 4 = false →
      (k = (if v.getLsbD 3 = true then .ep1 else .ep0) → ((storeLoc .misc v s).usb.fifo k).bytes = []) ∧
      (k ≠ (if v.getLsbD 3 = true then .ep1 else .ep0) → (s.usb.misc.request = false ∨ s.usb.misc.tx = v.getLsbD 1) →
        (storeLoc .misc v s).usb.fifo k = s.usb.fifo k)) ∧
    (v.getLsbD 0 = false → (storeLoc .misc v s).usb.fifo k = s.usb.fifo k)

/-- The device address follows AWR at once with Adr_set = 0, and after the host's next IN with Adr_set = 1, which clears
Adr_set (62_ports_usb_ps2.md R548). That an IN on either endpoint does it is the model's choice (log 24). -/
def Obligations.DeviceAddressUpdate : Prop :=
  ∀ (s : State) (v : Byte) (k : Endpoint),
    (s.usb.sies.getLsbD 0 = false → (storeLoc .awr v s).usb.devAddr.toNat = v.toNat / 2) ∧
    (s.usb.sies.getLsbD 0 = true → (storeLoc .awr v s).usb.devAddr = s.usb.devAddr) ∧
    (s.usb.sies.getLsbD 0 = true → s.usb.usr.getLsbD k.bit.toNat = false →
      (s.usbAccess k .inTaken).usb.devAddr.toNat = s.usb.awr.toNat / 2 ∧
        (s.usbAccess k .inTaken).usb.sies.getLsbD 0 = false)

/-- The events of the USB bus. A suspend sets SUSPEND, the start of a resume sets RESUME_O, its end clears both, and
each sets USBF; nothing else changes (62_ports_usb_ps2.md R511, R513). With no USB interface selected none is delivered
(R518). An access, the host's use of a pipe and the marks of SIES reach the machine only while the interface is
selected, USBCKEN is 1 and SCLKSEL matches the crystal (R520). That a halted machine hears only resumes and resets, and
that those and the suspend need no USB clock, is the model's choice (log 19), and so is that the host's use of a pipe
begins and ends by a move of its own (log 21). -/
def Obligations.UsbBusEvents : Prop :=
  ∀ (s : State) (k : Endpoint) (p : Packet) (x y z : Bool),
    let selected := s.usb.usr.getLsbD 5 = true ∧ s.usb.usr.getLsbD 4 = false
    let heard := selected ∧ s.usb.scc.getLsbD 3 = true ∧ (s.usb.scc.getLsbD 6 = true ↔ s.config.fSys = .mhz6) ∧
      s.halt.halted = false
    let requested := fun c : Usc =>
      MoveEffect.goesOn { s with usb := { s.usb with usc := c }, intc := { s.intc with usbf := true } }
    (selected → s.halt.halted = false → applyMove .usbSuspend s = requested { s.usb.usc with suspend := true }) ∧
    (selected → applyMove .usbResumeStart s = requested { s.usb.usc with resumeO := true }) ∧
    (selected → applyMove .usbResumeEnd s = requested { s.usb.usc with suspend := false, resumeO := false }) ∧
    (¬selected → ∀ m ∈ [EnvMove.usbSuspend, .usbResumeStart, .usbResumeEnd, .usbReset], applyMove m s = .goesOn s) ∧
    (¬heard → ∀ m ∈ [EnvMove.usbAccess k p, .usbBusy k x, .crcError, .fifo0Error, .siesBus x y z],
      applyMove m s = .goesOn s) ∧
    (heard →
      applyMove (.usbAccess k p) s = .goesOn (s.usbAccess k p) ∧
      applyMove (.usbBusy k x) s = .goesOn (s.setUsb (s.usb.setFifo k { s.usb.fifo k with busy := x })) ∧
      (∃ v, applyMove .crcError s = .goesOn (s.setUsb { s.usb with sies := v }) ∧
        ∀ i, i < 8 → v.getLsbD i = (decide (i = 5) || s.usb.sies.getLsbD i)) ∧
      (∃ v, applyMove .fifo0Error s = .goesOn (s.setUsb { s.usb with sies := v }) ∧
        ∀ i, i < 8 → v.getLsbD i = (decide (i = 1) || s.usb.sies.getLsbD i)) ∧
      ∃ v, applyMove (.siesBus x y z) s = .goesOn (s.setUsb { s.usb with sies := v }) ∧
        ∀ i, i < 8 → v.getLsbD i =
          if i = 3 then x else if i = 4 then y else if i = 6 then z else s.usb.sies.getLsbD i)
end

