-- ==== Sys2Proof/Laws/Memory.lean ====
section
/-! SUPPORT. The laws of Memory: what a read after a write gives, and that every operation keeps the canonical form. -/

namespace Sys2Proof.Machine

theorem Memory.sortedFrom_mono {lo lo' : Nat} {m : Memory} (h : m.sortedFrom lo = true) (hle : lo' ≤ lo) :
    m.sortedFrom lo' = true := by
  cases m with
  | nil => rfl
  | cons c rest =>
    simp only [sortedFrom, Bool.and_eq_true, decide_eq_true_eq] at h ⊢
    exact ⟨⟨by omega, h.1.2⟩, h.2⟩

theorem Memory.sortedFrom_consCell {lo a : Nat} {v : Byte} {m : Memory} (hlo : lo ≤ a)
    (h : m.sortedFrom (a + 1) = true) : (consCell a v m).sortedFrom lo = true := by
  unfold consCell
  split
  · exact sortedFrom_mono h (by omega)
  · simp_all [sortedFrom]

/-- A write keeps the canonical form. -/
theorem Memory.sortedFrom_write {m : Memory} {lo a : Nat} {v : Byte} (h : m.sortedFrom lo = true) (hlo : lo ≤ a) :
    (m.write a v).sortedFrom lo = true := by
  induction m generalizing lo with
  | nil => exact sortedFrom_consCell hlo rfl
  | cons c rest ih =>
    obtain ⟨b, w⟩ := c
    simp only [sortedFrom, Bool.and_eq_true, decide_eq_true_eq] at h
    unfold write
    split
    · exact sortedFrom_consCell hlo (by simp only [sortedFrom, Bool.and_eq_true, decide_eq_true_eq]; exact ⟨⟨by omega, h.1.2⟩, h.2⟩)
    · split
      · subst_vars; exact sortedFrom_consCell hlo h.2
      · simp only [sortedFrom, Bool.and_eq_true, decide_eq_true_eq]
        exact ⟨h.1, ih h.2 (by omega)⟩

theorem Memory.wf_write {m : Memory} {a : Nat} {v : Byte} (h : m.wf = true) : (m.write a v).wf = true :=
  sortedFrom_write h (Nat.zero_le a)

/-- Below every listed address a memory reads blank. -/
theorem Memory.read_below {m : Memory} {lo a : Nat} (h : m.sortedFrom lo = true) (ha : a < lo) : m.read a = blank := by
  cases m with
  | nil => rfl
  | cons c rest =>
    obtain ⟨b, w⟩ := c
    simp only [sortedFrom, Bool.and_eq_true, decide_eq_true_eq] at h
    simp only [read]
    rw [if_neg (by omega), if_pos (by omega)]

theorem Memory.read_consCell {a b : Nat} {v : Byte} {m : Memory} (h : m.sortedFrom (a + 1) = true) :
    (consCell a v m).read b = if b = a then v else m.read b := by
  unfold consCell
  split
  · rename_i hv
    split
    · subst_vars; exact read_below h (by omega)
    · rfl
  · simp only [read]
    split
    · rfl
    · split
      · exact (read_below h (by omega)).symm
      · rfl

theorem Memory.read_write_from {m : Memory} {lo a b : Nat} {v : Byte} (h : m.sortedFrom lo = true) :
    (m.write a v).read b = if b = a then v else m.read b := by
  induction m generalizing lo with
  | nil => exact read_consCell rfl
  | cons c rest ih =>
    obtain ⟨x, w⟩ := c
    have h' := h
    simp only [sortedFrom, Bool.and_eq_true, decide_eq_true_eq] at h
    unfold write
    split
    · refine read_consCell ?_
      simp only [sortedFrom, Bool.and_eq_true, decide_eq_true_eq]
      exact ⟨⟨by omega, h.1.2⟩, h.2⟩
    · split
      · subst_vars
        rw [read_consCell h.2]
        simp only [read]
        split
        · rfl
        · split
          · exact read_below h.2 (by omega)
          · rfl
      · simp only [read]
        split
        · rw [if_neg (by omega)]
        · split
          · rw [if_neg (by omega)]
          · exact ih h.2

/-- What every byte reads as after a write. -/
theorem Memory.read_write {m : Memory} {a b : Nat} {v : Byte} (h : m.wf = true) :
    (m.write a v).read b = if b = a then v else m.read b := read_write_from h

theorem Memory.within_cons (lo hi a : Nat) (v : Byte) (m : Memory) :
    Memory.within lo hi ((a, v) :: m) = true ↔ (lo ≤ a ∧ a < hi) ∧ Memory.within lo hi m = true := by
  simp only [within, List.all_cons, Bool.and_eq_true, decide_eq_true_eq]

theorem Memory.within_consCell {lo hi a : Nat} {v : Byte} {m : Memory} (h : m.within lo hi = true) (h1 : lo ≤ a)
    (h2 : a < hi) : (consCell a v m).within lo hi = true := by
  unfold consCell
  split
  · exact h
  · exact (within_cons ..).2 ⟨⟨h1, h2⟩, h⟩

/-- A write inside the bounds keeps the bounds. -/
theorem Memory.within_write {lo hi a : Nat} {v : Byte} {m : Memory} (h : m.within lo hi = true) (h1 : lo ≤ a)
    (h2 : a < hi) : (m.write a v).within lo hi = true := by
  induction m with
  | nil => exact within_consCell h h1 h2
  | cons c rest ih =>
    obtain ⟨b, w⟩ := c
    have hr := (within_cons ..).1 h
    unfold write
    split
    · exact within_consCell h h1 h2
    · split
      · exact within_consCell hr.2 h1 h2
      · exact (within_cons ..).2 ⟨hr.1, ih hr.2⟩

/-- A filled range, from `base` on. -/
theorem Memory.foldr_consCell_sorted (f : Nat → Byte) (l : List Nat) (base : Nat) (hl : l.Pairwise (· < ·)) (lo : Nat)
    (hlo : ∀ j ∈ l, lo ≤ base + j) :
    (l.foldr (fun j rest => consCell (base + j) (f (base + j)) rest) []).sortedFrom lo = true := by
  induction l generalizing lo with
  | nil => rfl
  | cons j rest ih =>
    simp only [List.pairwise_cons] at hl
    refine sortedFrom_consCell (hlo j (by simp)) (ih hl.2 _ ?_)
    intro k hk
    have := hl.1 k hk
    omega

theorem Memory.foldr_consCell_within (f : Nat → Byte) (l : List Nat) (base hi : Nat) (hl : ∀ j ∈ l, base + j < hi) :
    (l.foldr (fun j rest => consCell (base + j) (f (base + j)) rest) []).within base hi = true := by
  induction l with
  | nil => rfl
  | cons j rest ih =>
    exact within_consCell (ih fun k hk => hl k (by simp [hk])) (by omega) (hl j (by simp))

theorem filledRam_wf (f : Nat → Byte) : (filledRam f).wf = true :=
  Memory.foldr_consCell_sorted f _ _ List.pairwise_lt_range _ (by omega)

theorem filledRam_within (f : Nat → Byte) : (filledRam f).within 0x20 0x80 = true :=
  Memory.foldr_consCell_within f _ _ _ (by intro j hj; have := List.mem_range.1 hj; omega)

end Sys2Proof.Machine
end

