-- ==== Sys2Proof/Laws/State.lean ====
section
/-! SUPPORT. One lemma per field and update of State, true by rfl: the field written, and every field kept. -/

namespace Sys2Proof.Machine

@[simp] theorem State.setAcc_acc (s : State) (v : Byte) : (s.setAcc v).acc = v := rfl
@[simp] theorem State.setAcc_pc (s : State) (v : Byte) : (s.setAcc v).pc = s.pc := rfl
@[simp] theorem State.setAcc_flags (s : State) (v : Byte) : (s.setAcc v).flags = s.flags := rfl
@[simp] theorem State.setAcc_stk (s : State) (v : Byte) : (s.setAcc v).stk = s.stk := rfl
@[simp] theorem State.setAcc_mp0 (s : State) (v : Byte) : (s.setAcc v).mp0 = s.mp0 := rfl
@[simp] theorem State.setAcc_mp1 (s : State) (v : Byte) : (s.setAcc v).mp1 = s.mp1 := rfl
@[simp] theorem State.setAcc_bp (s : State) (v : Byte) : (s.setAcc v).bp = s.bp := rfl
@[simp] theorem State.setAcc_tblp (s : State) (v : Byte) : (s.setAcc v).tblp = s.tblp := rfl
@[simp] theorem State.setAcc_tblh (s : State) (v : Byte) : (s.setAcc v).tblh = s.tblh := rfl
@[simp] theorem State.setAcc_tbhp (s : State) (v : Byte) : (s.setAcc v).tbhp = s.tbhp := rfl
@[simp] theorem State.setAcc_intc (s : State) (v : Byte) : (s.setAcc v).intc = s.intc := rfl
@[simp] theorem State.setAcc_ram (s : State) (v : Byte) : (s.setAcc v).ram = s.ram := rfl
@[simp] theorem State.setAcc_rom (s : State) (v : Byte) : (s.setAcc v).rom = s.rom := rfl
@[simp] theorem State.setAcc_timer (s : State) (v : Byte) : (s.setAcc v).timer = s.timer := rfl
@[simp] theorem State.setAcc_wdt (s : State) (v : Byte) : (s.setAcc v).wdt = s.wdt := rfl
@[simp] theorem State.setAcc_ports (s : State) (v : Byte) : (s.setAcc v).ports = s.ports := rfl
@[simp] theorem State.setAcc_usb (s : State) (v : Byte) : (s.setAcc v).usb = s.usb := rfl
@[simp] theorem State.setAcc_halt (s : State) (v : Byte) : (s.setAcc v).halt = s.halt := rfl
@[simp] theorem State.setAcc_config (s : State) (v : Byte) : (s.setAcc v).config = s.config := rfl
@[simp] theorem State.setAcc_env (s : State) (v : Byte) : (s.setAcc v).env = s.env := rfl
@[simp] theorem State.setAcc_irqAge (s : State) (v : Byte) : (s.setAcc v).irqAge = s.irqAge := rfl
@[simp] theorem State.setAcc_gap (s : State) (v : Byte) : (s.setAcc v).gap = s.gap := rfl
@[simp] theorem State.setAcc_cyc (s : State) (v : Byte) : (s.setAcc v).cyc = s.cyc := rfl
@[simp] theorem State.setAcc_draws (s : State) (v : Byte) : (s.setAcc v).draws = s.draws := rfl

@[simp] theorem State.setPc_acc (s : State) (a : ProgAddr) : (s.setPc a).acc = s.acc := rfl
@[simp] theorem State.setPc_pc (s : State) (a : ProgAddr) : (s.setPc a).pc = a := rfl
@[simp] theorem State.setPc_flags (s : State) (a : ProgAddr) : (s.setPc a).flags = s.flags := rfl
@[simp] theorem State.setPc_stk (s : State) (a : ProgAddr) : (s.setPc a).stk = s.stk := rfl
@[simp] theorem State.setPc_mp0 (s : State) (a : ProgAddr) : (s.setPc a).mp0 = s.mp0 := rfl
@[simp] theorem State.setPc_mp1 (s : State) (a : ProgAddr) : (s.setPc a).mp1 = s.mp1 := rfl
@[simp] theorem State.setPc_bp (s : State) (a : ProgAddr) : (s.setPc a).bp = s.bp := rfl
@[simp] theorem State.setPc_tblp (s : State) (a : ProgAddr) : (s.setPc a).tblp = s.tblp := rfl
@[simp] theorem State.setPc_tblh (s : State) (a : ProgAddr) : (s.setPc a).tblh = s.tblh := rfl
@[simp] theorem State.setPc_tbhp (s : State) (a : ProgAddr) : (s.setPc a).tbhp = s.tbhp := rfl
@[simp] theorem State.setPc_intc (s : State) (a : ProgAddr) : (s.setPc a).intc = s.intc := rfl
@[simp] theorem State.setPc_ram (s : State) (a : ProgAddr) : (s.setPc a).ram = s.ram := rfl
@[simp] theorem State.setPc_rom (s : State) (a : ProgAddr) : (s.setPc a).rom = s.rom := rfl
@[simp] theorem State.setPc_timer (s : State) (a : ProgAddr) : (s.setPc a).timer = s.timer := rfl
@[simp] theorem State.setPc_wdt (s : State) (a : ProgAddr) : (s.setPc a).wdt = s.wdt := rfl
@[simp] theorem State.setPc_ports (s : State) (a : ProgAddr) : (s.setPc a).ports = s.ports := rfl
@[simp] theorem State.setPc_usb (s : State) (a : ProgAddr) : (s.setPc a).usb = s.usb := rfl
@[simp] theorem State.setPc_halt (s : State) (a : ProgAddr) : (s.setPc a).halt = s.halt := rfl
@[simp] theorem State.setPc_config (s : State) (a : ProgAddr) : (s.setPc a).config = s.config := rfl
@[simp] theorem State.setPc_env (s : State) (a : ProgAddr) : (s.setPc a).env = s.env := rfl
@[simp] theorem State.setPc_irqAge (s : State) (a : ProgAddr) : (s.setPc a).irqAge = s.irqAge := rfl
@[simp] theorem State.setPc_gap (s : State) (a : ProgAddr) : (s.setPc a).gap = s.gap := rfl
@[simp] theorem State.setPc_cyc (s : State) (a : ProgAddr) : (s.setPc a).cyc = s.cyc := rfl
@[simp] theorem State.setPc_draws (s : State) (a : ProgAddr) : (s.setPc a).draws = s.draws := rfl

@[simp] theorem State.setFlags_acc (s : State) (f : Flags) : (s.setFlags f).acc = s.acc := rfl
@[simp] theorem State.setFlags_pc (s : State) (f : Flags) : (s.setFlags f).pc = s.pc := rfl
@[simp] theorem State.setFlags_flags (s : State) (f : Flags) : (s.setFlags f).flags = f := rfl
@[simp] theorem State.setFlags_stk (s : State) (f : Flags) : (s.setFlags f).stk = s.stk := rfl
@[simp] theorem State.setFlags_mp0 (s : State) (f : Flags) : (s.setFlags f).mp0 = s.mp0 := rfl
@[simp] theorem State.setFlags_mp1 (s : State) (f : Flags) : (s.setFlags f).mp1 = s.mp1 := rfl
@[simp] theorem State.setFlags_bp (s : State) (f : Flags) : (s.setFlags f).bp = s.bp := rfl
@[simp] theorem State.setFlags_tblp (s : State) (f : Flags) : (s.setFlags f).tblp = s.tblp := rfl
@[simp] theorem State.setFlags_tblh (s : State) (f : Flags) : (s.setFlags f).tblh = s.tblh := rfl
@[simp] theorem State.setFlags_tbhp (s : State) (f : Flags) : (s.setFlags f).tbhp = s.tbhp := rfl
@[simp] theorem State.setFlags_intc (s : State) (f : Flags) : (s.setFlags f).intc = s.intc := rfl
@[simp] theorem State.setFlags_ram (s : State) (f : Flags) : (s.setFlags f).ram = s.ram := rfl
@[simp] theorem State.setFlags_rom (s : State) (f : Flags) : (s.setFlags f).rom = s.rom := rfl
@[simp] theorem State.setFlags_timer (s : State) (f : Flags) : (s.setFlags f).timer = s.timer := rfl
@[simp] theorem State.setFlags_wdt (s : State) (f : Flags) : (s.setFlags f).wdt = s.wdt := rfl
@[simp] theorem State.setFlags_ports (s : State) (f : Flags) : (s.setFlags f).ports = s.ports := rfl
@[simp] theorem State.setFlags_usb (s : State) (f : Flags) : (s.setFlags f).usb = s.usb := rfl
@[simp] theorem State.setFlags_halt (s : State) (f : Flags) : (s.setFlags f).halt = s.halt := rfl
@[simp] theorem State.setFlags_config (s : State) (f : Flags) : (s.setFlags f).config = s.config := rfl
@[simp] theorem State.setFlags_env (s : State) (f : Flags) : (s.setFlags f).env = s.env := rfl
@[simp] theorem State.setFlags_irqAge (s : State) (f : Flags) : (s.setFlags f).irqAge = s.irqAge := rfl
@[simp] theorem State.setFlags_gap (s : State) (f : Flags) : (s.setFlags f).gap = s.gap := rfl
@[simp] theorem State.setFlags_cyc (s : State) (f : Flags) : (s.setFlags f).cyc = s.cyc := rfl
@[simp] theorem State.setFlags_draws (s : State) (f : Flags) : (s.setFlags f).draws = s.draws := rfl

@[simp] theorem State.setStk_acc (s : State) (l : List ProgAddr) : (s.setStk l).acc = s.acc := rfl
@[simp] theorem State.setStk_pc (s : State) (l : List ProgAddr) : (s.setStk l).pc = s.pc := rfl
@[simp] theorem State.setStk_flags (s : State) (l : List ProgAddr) : (s.setStk l).flags = s.flags := rfl
@[simp] theorem State.setStk_stk (s : State) (l : List ProgAddr) : (s.setStk l).stk = l := rfl
@[simp] theorem State.setStk_mp0 (s : State) (l : List ProgAddr) : (s.setStk l).mp0 = s.mp0 := rfl
@[simp] theorem State.setStk_mp1 (s : State) (l : List ProgAddr) : (s.setStk l).mp1 = s.mp1 := rfl
@[simp] theorem State.setStk_bp (s : State) (l : List ProgAddr) : (s.setStk l).bp = s.bp := rfl
@[simp] theorem State.setStk_tblp (s : State) (l : List ProgAddr) : (s.setStk l).tblp = s.tblp := rfl
@[simp] theorem State.setStk_tblh (s : State) (l : List ProgAddr) : (s.setStk l).tblh = s.tblh := rfl
@[simp] theorem State.setStk_tbhp (s : State) (l : List ProgAddr) : (s.setStk l).tbhp = s.tbhp := rfl
@[simp] theorem State.setStk_intc (s : State) (l : List ProgAddr) : (s.setStk l).intc = s.intc := rfl
@[simp] theorem State.setStk_ram (s : State) (l : List ProgAddr) : (s.setStk l).ram = s.ram := rfl
@[simp] theorem State.setStk_rom (s : State) (l : List ProgAddr) : (s.setStk l).rom = s.rom := rfl
@[simp] theorem State.setStk_timer (s : State) (l : List ProgAddr) : (s.setStk l).timer = s.timer := rfl
@[simp] theorem State.setStk_wdt (s : State) (l : List ProgAddr) : (s.setStk l).wdt = s.wdt := rfl
@[simp] theorem State.setStk_ports (s : State) (l : List ProgAddr) : (s.setStk l).ports = s.ports := rfl
@[simp] theorem State.setStk_usb (s : State) (l : List ProgAddr) : (s.setStk l).usb = s.usb := rfl
@[simp] theorem State.setStk_halt (s : State) (l : List ProgAddr) : (s.setStk l).halt = s.halt := rfl
@[simp] theorem State.setStk_config (s : State) (l : List ProgAddr) : (s.setStk l).config = s.config := rfl
@[simp] theorem State.setStk_env (s : State) (l : List ProgAddr) : (s.setStk l).env = s.env := rfl
@[simp] theorem State.setStk_irqAge (s : State) (l : List ProgAddr) : (s.setStk l).irqAge = s.irqAge := rfl
@[simp] theorem State.setStk_gap (s : State) (l : List ProgAddr) : (s.setStk l).gap = s.gap := rfl
@[simp] theorem State.setStk_cyc (s : State) (l : List ProgAddr) : (s.setStk l).cyc = s.cyc := rfl
@[simp] theorem State.setStk_draws (s : State) (l : List ProgAddr) : (s.setStk l).draws = s.draws := rfl

@[simp] theorem State.setIntc_acc (s : State) (i : Intc) : (s.setIntc i).acc = s.acc := rfl
@[simp] theorem State.setIntc_pc (s : State) (i : Intc) : (s.setIntc i).pc = s.pc := rfl
@[simp] theorem State.setIntc_flags (s : State) (i : Intc) : (s.setIntc i).flags = s.flags := rfl
@[simp] theorem State.setIntc_stk (s : State) (i : Intc) : (s.setIntc i).stk = s.stk := rfl
@[simp] theorem State.setIntc_mp0 (s : State) (i : Intc) : (s.setIntc i).mp0 = s.mp0 := rfl
@[simp] theorem State.setIntc_mp1 (s : State) (i : Intc) : (s.setIntc i).mp1 = s.mp1 := rfl
@[simp] theorem State.setIntc_bp (s : State) (i : Intc) : (s.setIntc i).bp = s.bp := rfl
@[simp] theorem State.setIntc_tblp (s : State) (i : Intc) : (s.setIntc i).tblp = s.tblp := rfl
@[simp] theorem State.setIntc_tblh (s : State) (i : Intc) : (s.setIntc i).tblh = s.tblh := rfl
@[simp] theorem State.setIntc_tbhp (s : State) (i : Intc) : (s.setIntc i).tbhp = s.tbhp := rfl
@[simp] theorem State.setIntc_intc (s : State) (i : Intc) : (s.setIntc i).intc = i := rfl
@[simp] theorem State.setIntc_ram (s : State) (i : Intc) : (s.setIntc i).ram = s.ram := rfl
@[simp] theorem State.setIntc_rom (s : State) (i : Intc) : (s.setIntc i).rom = s.rom := rfl
@[simp] theorem State.setIntc_timer (s : State) (i : Intc) : (s.setIntc i).timer = s.timer := rfl
@[simp] theorem State.setIntc_wdt (s : State) (i : Intc) : (s.setIntc i).wdt = s.wdt := rfl
@[simp] theorem State.setIntc_ports (s : State) (i : Intc) : (s.setIntc i).ports = s.ports := rfl
@[simp] theorem State.setIntc_usb (s : State) (i : Intc) : (s.setIntc i).usb = s.usb := rfl
@[simp] theorem State.setIntc_halt (s : State) (i : Intc) : (s.setIntc i).halt = s.halt := rfl
@[simp] theorem State.setIntc_config (s : State) (i : Intc) : (s.setIntc i).config = s.config := rfl
@[simp] theorem State.setIntc_env (s : State) (i : Intc) : (s.setIntc i).env = s.env := rfl
@[simp] theorem State.setIntc_irqAge (s : State) (i : Intc) : (s.setIntc i).irqAge = s.irqAge := rfl
@[simp] theorem State.setIntc_gap (s : State) (i : Intc) : (s.setIntc i).gap = s.gap := rfl
@[simp] theorem State.setIntc_cyc (s : State) (i : Intc) : (s.setIntc i).cyc = s.cyc := rfl
@[simp] theorem State.setIntc_draws (s : State) (i : Intc) : (s.setIntc i).draws = s.draws := rfl

@[simp] theorem State.setTimer_acc (s : State) (t : Timer) : (s.setTimer t).acc = s.acc := rfl
@[simp] theorem State.setTimer_pc (s : State) (t : Timer) : (s.setTimer t).pc = s.pc := rfl
@[simp] theorem State.setTimer_flags (s : State) (t : Timer) : (s.setTimer t).flags = s.flags := rfl
@[simp] theorem State.setTimer_stk (s : State) (t : Timer) : (s.setTimer t).stk = s.stk := rfl
@[simp] theorem State.setTimer_mp0 (s : State) (t : Timer) : (s.setTimer t).mp0 = s.mp0 := rfl
@[simp] theorem State.setTimer_mp1 (s : State) (t : Timer) : (s.setTimer t).mp1 = s.mp1 := rfl
@[simp] theorem State.setTimer_bp (s : State) (t : Timer) : (s.setTimer t).bp = s.bp := rfl
@[simp] theorem State.setTimer_tblp (s : State) (t : Timer) : (s.setTimer t).tblp = s.tblp := rfl
@[simp] theorem State.setTimer_tblh (s : State) (t : Timer) : (s.setTimer t).tblh = s.tblh := rfl
@[simp] theorem State.setTimer_tbhp (s : State) (t : Timer) : (s.setTimer t).tbhp = s.tbhp := rfl
@[simp] theorem State.setTimer_intc (s : State) (t : Timer) : (s.setTimer t).intc = s.intc := rfl
@[simp] theorem State.setTimer_ram (s : State) (t : Timer) : (s.setTimer t).ram = s.ram := rfl
@[simp] theorem State.setTimer_rom (s : State) (t : Timer) : (s.setTimer t).rom = s.rom := rfl
@[simp] theorem State.setTimer_timer (s : State) (t : Timer) : (s.setTimer t).timer = t := rfl
@[simp] theorem State.setTimer_wdt (s : State) (t : Timer) : (s.setTimer t).wdt = s.wdt := rfl
@[simp] theorem State.setTimer_ports (s : State) (t : Timer) : (s.setTimer t).ports = s.ports := rfl
@[simp] theorem State.setTimer_usb (s : State) (t : Timer) : (s.setTimer t).usb = s.usb := rfl
@[simp] theorem State.setTimer_halt (s : State) (t : Timer) : (s.setTimer t).halt = s.halt := rfl
@[simp] theorem State.setTimer_config (s : State) (t : Timer) : (s.setTimer t).config = s.config := rfl
@[simp] theorem State.setTimer_env (s : State) (t : Timer) : (s.setTimer t).env = s.env := rfl
@[simp] theorem State.setTimer_irqAge (s : State) (t : Timer) : (s.setTimer t).irqAge = s.irqAge := rfl
@[simp] theorem State.setTimer_gap (s : State) (t : Timer) : (s.setTimer t).gap = s.gap := rfl
@[simp] theorem State.setTimer_cyc (s : State) (t : Timer) : (s.setTimer t).cyc = s.cyc := rfl
@[simp] theorem State.setTimer_draws (s : State) (t : Timer) : (s.setTimer t).draws = s.draws := rfl

@[simp] theorem State.setWdt_acc (s : State) (w : Wdt) : (s.setWdt w).acc = s.acc := rfl
@[simp] theorem State.setWdt_pc (s : State) (w : Wdt) : (s.setWdt w).pc = s.pc := rfl
@[simp] theorem State.setWdt_flags (s : State) (w : Wdt) : (s.setWdt w).flags = s.flags := rfl
@[simp] theorem State.setWdt_stk (s : State) (w : Wdt) : (s.setWdt w).stk = s.stk := rfl
@[simp] theorem State.setWdt_mp0 (s : State) (w : Wdt) : (s.setWdt w).mp0 = s.mp0 := rfl
@[simp] theorem State.setWdt_mp1 (s : State) (w : Wdt) : (s.setWdt w).mp1 = s.mp1 := rfl
@[simp] theorem State.setWdt_bp (s : State) (w : Wdt) : (s.setWdt w).bp = s.bp := rfl
@[simp] theorem State.setWdt_tblp (s : State) (w : Wdt) : (s.setWdt w).tblp = s.tblp := rfl
@[simp] theorem State.setWdt_tblh (s : State) (w : Wdt) : (s.setWdt w).tblh = s.tblh := rfl
@[simp] theorem State.setWdt_tbhp (s : State) (w : Wdt) : (s.setWdt w).tbhp = s.tbhp := rfl
@[simp] theorem State.setWdt_intc (s : State) (w : Wdt) : (s.setWdt w).intc = s.intc := rfl
@[simp] theorem State.setWdt_ram (s : State) (w : Wdt) : (s.setWdt w).ram = s.ram := rfl
@[simp] theorem State.setWdt_rom (s : State) (w : Wdt) : (s.setWdt w).rom = s.rom := rfl
@[simp] theorem State.setWdt_timer (s : State) (w : Wdt) : (s.setWdt w).timer = s.timer := rfl
@[simp] theorem State.setWdt_wdt (s : State) (w : Wdt) : (s.setWdt w).wdt = w := rfl
@[simp] theorem State.setWdt_ports (s : State) (w : Wdt) : (s.setWdt w).ports = s.ports := rfl
@[simp] theorem State.setWdt_usb (s : State) (w : Wdt) : (s.setWdt w).usb = s.usb := rfl
@[simp] theorem State.setWdt_halt (s : State) (w : Wdt) : (s.setWdt w).halt = s.halt := rfl
@[simp] theorem State.setWdt_config (s : State) (w : Wdt) : (s.setWdt w).config = s.config := rfl
@[simp] theorem State.setWdt_env (s : State) (w : Wdt) : (s.setWdt w).env = s.env := rfl
@[simp] theorem State.setWdt_irqAge (s : State) (w : Wdt) : (s.setWdt w).irqAge = s.irqAge := rfl
@[simp] theorem State.setWdt_gap (s : State) (w : Wdt) : (s.setWdt w).gap = s.gap := rfl
@[simp] theorem State.setWdt_cyc (s : State) (w : Wdt) : (s.setWdt w).cyc = s.cyc := rfl
@[simp] theorem State.setWdt_draws (s : State) (w : Wdt) : (s.setWdt w).draws = s.draws := rfl

@[simp] theorem State.setPorts_acc (s : State) (p : Ports) : (s.setPorts p).acc = s.acc := rfl
@[simp] theorem State.setPorts_pc (s : State) (p : Ports) : (s.setPorts p).pc = s.pc := rfl
@[simp] theorem State.setPorts_flags (s : State) (p : Ports) : (s.setPorts p).flags = s.flags := rfl
@[simp] theorem State.setPorts_stk (s : State) (p : Ports) : (s.setPorts p).stk = s.stk := rfl
@[simp] theorem State.setPorts_mp0 (s : State) (p : Ports) : (s.setPorts p).mp0 = s.mp0 := rfl
@[simp] theorem State.setPorts_mp1 (s : State) (p : Ports) : (s.setPorts p).mp1 = s.mp1 := rfl
@[simp] theorem State.setPorts_bp (s : State) (p : Ports) : (s.setPorts p).bp = s.bp := rfl
@[simp] theorem State.setPorts_tblp (s : State) (p : Ports) : (s.setPorts p).tblp = s.tblp := rfl
@[simp] theorem State.setPorts_tblh (s : State) (p : Ports) : (s.setPorts p).tblh = s.tblh := rfl
@[simp] theorem State.setPorts_tbhp (s : State) (p : Ports) : (s.setPorts p).tbhp = s.tbhp := rfl
@[simp] theorem State.setPorts_intc (s : State) (p : Ports) : (s.setPorts p).intc = s.intc := rfl
@[simp] theorem State.setPorts_ram (s : State) (p : Ports) : (s.setPorts p).ram = s.ram := rfl
@[simp] theorem State.setPorts_rom (s : State) (p : Ports) : (s.setPorts p).rom = s.rom := rfl
@[simp] theorem State.setPorts_timer (s : State) (p : Ports) : (s.setPorts p).timer = s.timer := rfl
@[simp] theorem State.setPorts_wdt (s : State) (p : Ports) : (s.setPorts p).wdt = s.wdt := rfl
@[simp] theorem State.setPorts_ports (s : State) (p : Ports) : (s.setPorts p).ports = p := rfl
@[simp] theorem State.setPorts_usb (s : State) (p : Ports) : (s.setPorts p).usb = s.usb := rfl
@[simp] theorem State.setPorts_halt (s : State) (p : Ports) : (s.setPorts p).halt = s.halt := rfl
@[simp] theorem State.setPorts_config (s : State) (p : Ports) : (s.setPorts p).config = s.config := rfl
@[simp] theorem State.setPorts_env (s : State) (p : Ports) : (s.setPorts p).env = s.env := rfl
@[simp] theorem State.setPorts_irqAge (s : State) (p : Ports) : (s.setPorts p).irqAge = s.irqAge := rfl
@[simp] theorem State.setPorts_gap (s : State) (p : Ports) : (s.setPorts p).gap = s.gap := rfl
@[simp] theorem State.setPorts_cyc (s : State) (p : Ports) : (s.setPorts p).cyc = s.cyc := rfl
@[simp] theorem State.setPorts_draws (s : State) (p : Ports) : (s.setPorts p).draws = s.draws := rfl

@[simp] theorem State.setUsb_acc (s : State) (u : Usb) : (s.setUsb u).acc = s.acc := rfl
@[simp] theorem State.setUsb_pc (s : State) (u : Usb) : (s.setUsb u).pc = s.pc := rfl
@[simp] theorem State.setUsb_flags (s : State) (u : Usb) : (s.setUsb u).flags = s.flags := rfl
@[simp] theorem State.setUsb_stk (s : State) (u : Usb) : (s.setUsb u).stk = s.stk := rfl
@[simp] theorem State.setUsb_mp0 (s : State) (u : Usb) : (s.setUsb u).mp0 = s.mp0 := rfl
@[simp] theorem State.setUsb_mp1 (s : State) (u : Usb) : (s.setUsb u).mp1 = s.mp1 := rfl
@[simp] theorem State.setUsb_bp (s : State) (u : Usb) : (s.setUsb u).bp = s.bp := rfl
@[simp] theorem State.setUsb_tblp (s : State) (u : Usb) : (s.setUsb u).tblp = s.tblp := rfl
@[simp] theorem State.setUsb_tblh (s : State) (u : Usb) : (s.setUsb u).tblh = s.tblh := rfl
@[simp] theorem State.setUsb_tbhp (s : State) (u : Usb) : (s.setUsb u).tbhp = s.tbhp := rfl
@[simp] theorem State.setUsb_intc (s : State) (u : Usb) : (s.setUsb u).intc = s.intc := rfl
@[simp] theorem State.setUsb_ram (s : State) (u : Usb) : (s.setUsb u).ram = s.ram := rfl
@[simp] theorem State.setUsb_rom (s : State) (u : Usb) : (s.setUsb u).rom = s.rom := rfl
@[simp] theorem State.setUsb_timer (s : State) (u : Usb) : (s.setUsb u).timer = s.timer := rfl
@[simp] theorem State.setUsb_wdt (s : State) (u : Usb) : (s.setUsb u).wdt = s.wdt := rfl
@[simp] theorem State.setUsb_ports (s : State) (u : Usb) : (s.setUsb u).ports = s.ports := rfl
@[simp] theorem State.setUsb_usb (s : State) (u : Usb) : (s.setUsb u).usb = u := rfl
@[simp] theorem State.setUsb_halt (s : State) (u : Usb) : (s.setUsb u).halt = s.halt := rfl
@[simp] theorem State.setUsb_config (s : State) (u : Usb) : (s.setUsb u).config = s.config := rfl
@[simp] theorem State.setUsb_env (s : State) (u : Usb) : (s.setUsb u).env = s.env := rfl
@[simp] theorem State.setUsb_irqAge (s : State) (u : Usb) : (s.setUsb u).irqAge = s.irqAge := rfl
@[simp] theorem State.setUsb_gap (s : State) (u : Usb) : (s.setUsb u).gap = s.gap := rfl
@[simp] theorem State.setUsb_cyc (s : State) (u : Usb) : (s.setUsb u).cyc = s.cyc := rfl
@[simp] theorem State.setUsb_draws (s : State) (u : Usb) : (s.setUsb u).draws = s.draws := rfl

@[simp] theorem State.setHalt_acc (s : State) (h : Halt) : (s.setHalt h).acc = s.acc := rfl
@[simp] theorem State.setHalt_pc (s : State) (h : Halt) : (s.setHalt h).pc = s.pc := rfl
@[simp] theorem State.setHalt_flags (s : State) (h : Halt) : (s.setHalt h).flags = s.flags := rfl
@[simp] theorem State.setHalt_stk (s : State) (h : Halt) : (s.setHalt h).stk = s.stk := rfl
@[simp] theorem State.setHalt_mp0 (s : State) (h : Halt) : (s.setHalt h).mp0 = s.mp0 := rfl
@[simp] theorem State.setHalt_mp1 (s : State) (h : Halt) : (s.setHalt h).mp1 = s.mp1 := rfl
@[simp] theorem State.setHalt_bp (s : State) (h : Halt) : (s.setHalt h).bp = s.bp := rfl
@[simp] theorem State.setHalt_tblp (s : State) (h : Halt) : (s.setHalt h).tblp = s.tblp := rfl
@[simp] theorem State.setHalt_tblh (s : State) (h : Halt) : (s.setHalt h).tblh = s.tblh := rfl
@[simp] theorem State.setHalt_tbhp (s : State) (h : Halt) : (s.setHalt h).tbhp = s.tbhp := rfl
@[simp] theorem State.setHalt_intc (s : State) (h : Halt) : (s.setHalt h).intc = s.intc := rfl
@[simp] theorem State.setHalt_ram (s : State) (h : Halt) : (s.setHalt h).ram = s.ram := rfl
@[simp] theorem State.setHalt_rom (s : State) (h : Halt) : (s.setHalt h).rom = s.rom := rfl
@[simp] theorem State.setHalt_timer (s : State) (h : Halt) : (s.setHalt h).timer = s.timer := rfl
@[simp] theorem State.setHalt_wdt (s : State) (h : Halt) : (s.setHalt h).wdt = s.wdt := rfl
@[simp] theorem State.setHalt_ports (s : State) (h : Halt) : (s.setHalt h).ports = s.ports := rfl
@[simp] theorem State.setHalt_usb (s : State) (h : Halt) : (s.setHalt h).usb = s.usb := rfl
@[simp] theorem State.setHalt_halt (s : State) (h : Halt) : (s.setHalt h).halt = h := rfl
@[simp] theorem State.setHalt_config (s : State) (h : Halt) : (s.setHalt h).config = s.config := rfl
@[simp] theorem State.setHalt_env (s : State) (h : Halt) : (s.setHalt h).env = s.env := rfl
@[simp] theorem State.setHalt_irqAge (s : State) (h : Halt) : (s.setHalt h).irqAge = s.irqAge := rfl
@[simp] theorem State.setHalt_gap (s : State) (h : Halt) : (s.setHalt h).gap = s.gap := rfl
@[simp] theorem State.setHalt_cyc (s : State) (h : Halt) : (s.setHalt h).cyc = s.cyc := rfl
@[simp] theorem State.setHalt_draws (s : State) (h : Halt) : (s.setHalt h).draws = s.draws := rfl

@[simp] theorem State.setGap_acc (s : State) (g : Gap) : (s.setGap g).acc = s.acc := rfl
@[simp] theorem State.setGap_pc (s : State) (g : Gap) : (s.setGap g).pc = s.pc := rfl
@[simp] theorem State.setGap_flags (s : State) (g : Gap) : (s.setGap g).flags = s.flags := rfl
@[simp] theorem State.setGap_stk (s : State) (g : Gap) : (s.setGap g).stk = s.stk := rfl
@[simp] theorem State.setGap_mp0 (s : State) (g : Gap) : (s.setGap g).mp0 = s.mp0 := rfl
@[simp] theorem State.setGap_mp1 (s : State) (g : Gap) : (s.setGap g).mp1 = s.mp1 := rfl
@[simp] theorem State.setGap_bp (s : State) (g : Gap) : (s.setGap g).bp = s.bp := rfl
@[simp] theorem State.setGap_tblp (s : State) (g : Gap) : (s.setGap g).tblp = s.tblp := rfl
@[simp] theorem State.setGap_tblh (s : State) (g : Gap) : (s.setGap g).tblh = s.tblh := rfl
@[simp] theorem State.setGap_tbhp (s : State) (g : Gap) : (s.setGap g).tbhp = s.tbhp := rfl
@[simp] theorem State.setGap_intc (s : State) (g : Gap) : (s.setGap g).intc = s.intc := rfl
@[simp] theorem State.setGap_ram (s : State) (g : Gap) : (s.setGap g).ram = s.ram := rfl
@[simp] theorem State.setGap_rom (s : State) (g : Gap) : (s.setGap g).rom = s.rom := rfl
@[simp] theorem State.setGap_timer (s : State) (g : Gap) : (s.setGap g).timer = s.timer := rfl
@[simp] theorem State.setGap_wdt (s : State) (g : Gap) : (s.setGap g).wdt = s.wdt := rfl
@[simp] theorem State.setGap_ports (s : State) (g : Gap) : (s.setGap g).ports = s.ports := rfl
@[simp] theorem State.setGap_usb (s : State) (g : Gap) : (s.setGap g).usb = s.usb := rfl
@[simp] theorem State.setGap_halt (s : State) (g : Gap) : (s.setGap g).halt = s.halt := rfl
@[simp] theorem State.setGap_config (s : State) (g : Gap) : (s.setGap g).config = s.config := rfl
@[simp] theorem State.setGap_env (s : State) (g : Gap) : (s.setGap g).env = s.env := rfl
@[simp] theorem State.setGap_irqAge (s : State) (g : Gap) : (s.setGap g).irqAge = s.irqAge := rfl
@[simp] theorem State.setGap_gap (s : State) (g : Gap) : (s.setGap g).gap = g := rfl
@[simp] theorem State.setGap_cyc (s : State) (g : Gap) : (s.setGap g).cyc = s.cyc := rfl
@[simp] theorem State.setGap_draws (s : State) (g : Gap) : (s.setGap g).draws = s.draws := rfl

@[simp] theorem State.addCycles_acc (s : State) (n : Nat) : (s.addCycles n).acc = s.acc := rfl
@[simp] theorem State.addCycles_pc (s : State) (n : Nat) : (s.addCycles n).pc = s.pc := rfl
@[simp] theorem State.addCycles_flags (s : State) (n : Nat) : (s.addCycles n).flags = s.flags := rfl
@[simp] theorem State.addCycles_stk (s : State) (n : Nat) : (s.addCycles n).stk = s.stk := rfl
@[simp] theorem State.addCycles_mp0 (s : State) (n : Nat) : (s.addCycles n).mp0 = s.mp0 := rfl
@[simp] theorem State.addCycles_mp1 (s : State) (n : Nat) : (s.addCycles n).mp1 = s.mp1 := rfl
@[simp] theorem State.addCycles_bp (s : State) (n : Nat) : (s.addCycles n).bp = s.bp := rfl
@[simp] theorem State.addCycles_tblp (s : State) (n : Nat) : (s.addCycles n).tblp = s.tblp := rfl
@[simp] theorem State.addCycles_tblh (s : State) (n : Nat) : (s.addCycles n).tblh = s.tblh := rfl
@[simp] theorem State.addCycles_tbhp (s : State) (n : Nat) : (s.addCycles n).tbhp = s.tbhp := rfl
@[simp] theorem State.addCycles_intc (s : State) (n : Nat) : (s.addCycles n).intc = s.intc := rfl
@[simp] theorem State.addCycles_ram (s : State) (n : Nat) : (s.addCycles n).ram = s.ram := rfl
@[simp] theorem State.addCycles_rom (s : State) (n : Nat) : (s.addCycles n).rom = s.rom := rfl
@[simp] theorem State.addCycles_timer (s : State) (n : Nat) : (s.addCycles n).timer = s.timer := rfl
@[simp] theorem State.addCycles_wdt (s : State) (n : Nat) : (s.addCycles n).wdt = s.wdt := rfl
@[simp] theorem State.addCycles_ports (s : State) (n : Nat) : (s.addCycles n).ports = s.ports := rfl
@[simp] theorem State.addCycles_usb (s : State) (n : Nat) : (s.addCycles n).usb = s.usb := rfl
@[simp] theorem State.addCycles_halt (s : State) (n : Nat) : (s.addCycles n).halt = s.halt := rfl
@[simp] theorem State.addCycles_config (s : State) (n : Nat) : (s.addCycles n).config = s.config := rfl
@[simp] theorem State.addCycles_env (s : State) (n : Nat) : (s.addCycles n).env = s.env := rfl
@[simp] theorem State.addCycles_irqAge (s : State) (n : Nat) : (s.addCycles n).irqAge = s.irqAge := rfl
@[simp] theorem State.addCycles_gap (s : State) (n : Nat) : (s.addCycles n).gap = s.gap := rfl
@[simp] theorem State.addCycles_cyc (s : State) (n : Nat) : (s.addCycles n).cyc = s.cyc + n := rfl
@[simp] theorem State.addCycles_draws (s : State) (n : Nat) : (s.addCycles n).draws = s.draws := rfl

@[simp] theorem State.addDraws_acc (s : State) (n : Nat) : (s.addDraws n).acc = s.acc := rfl
@[simp] theorem State.addDraws_pc (s : State) (n : Nat) : (s.addDraws n).pc = s.pc := rfl
@[simp] theorem State.addDraws_flags (s : State) (n : Nat) : (s.addDraws n).flags = s.flags := rfl
@[simp] theorem State.addDraws_stk (s : State) (n : Nat) : (s.addDraws n).stk = s.stk := rfl
@[simp] theorem State.addDraws_mp0 (s : State) (n : Nat) : (s.addDraws n).mp0 = s.mp0 := rfl
@[simp] theorem State.addDraws_mp1 (s : State) (n : Nat) : (s.addDraws n).mp1 = s.mp1 := rfl
@[simp] theorem State.addDraws_bp (s : State) (n : Nat) : (s.addDraws n).bp = s.bp := rfl
@[simp] theorem State.addDraws_tblp (s : State) (n : Nat) : (s.addDraws n).tblp = s.tblp := rfl
@[simp] theorem State.addDraws_tblh (s : State) (n : Nat) : (s.addDraws n).tblh = s.tblh := rfl
@[simp] theorem State.addDraws_tbhp (s : State) (n : Nat) : (s.addDraws n).tbhp = s.tbhp := rfl
@[simp] theorem State.addDraws_intc (s : State) (n : Nat) : (s.addDraws n).intc = s.intc := rfl
@[simp] theorem State.addDraws_ram (s : State) (n : Nat) : (s.addDraws n).ram = s.ram := rfl
@[simp] theorem State.addDraws_rom (s : State) (n : Nat) : (s.addDraws n).rom = s.rom := rfl
@[simp] theorem State.addDraws_timer (s : State) (n : Nat) : (s.addDraws n).timer = s.timer := rfl
@[simp] theorem State.addDraws_wdt (s : State) (n : Nat) : (s.addDraws n).wdt = s.wdt := rfl
@[simp] theorem State.addDraws_ports (s : State) (n : Nat) : (s.addDraws n).ports = s.ports := rfl
@[simp] theorem State.addDraws_usb (s : State) (n : Nat) : (s.addDraws n).usb = s.usb := rfl
@[simp] theorem State.addDraws_halt (s : State) (n : Nat) : (s.addDraws n).halt = s.halt := rfl
@[simp] theorem State.addDraws_config (s : State) (n : Nat) : (s.addDraws n).config = s.config := rfl
@[simp] theorem State.addDraws_env (s : State) (n : Nat) : (s.addDraws n).env = s.env := rfl
@[simp] theorem State.addDraws_irqAge (s : State) (n : Nat) : (s.addDraws n).irqAge = s.irqAge := rfl
@[simp] theorem State.addDraws_gap (s : State) (n : Nat) : (s.addDraws n).gap = s.gap := rfl
@[simp] theorem State.addDraws_cyc (s : State) (n : Nat) : (s.addDraws n).cyc = s.cyc := rfl
@[simp] theorem State.addDraws_draws (s : State) (n : Nat) : (s.addDraws n).draws = s.draws + n := rfl

@[simp] theorem State.settleAges_acc (s : State) : s.settleAges.acc = s.acc := rfl
@[simp] theorem State.settleAges_pc (s : State) : s.settleAges.pc = s.pc := rfl
@[simp] theorem State.settleAges_flags (s : State) : s.settleAges.flags = s.flags := rfl
@[simp] theorem State.settleAges_stk (s : State) : s.settleAges.stk = s.stk := rfl
@[simp] theorem State.settleAges_mp0 (s : State) : s.settleAges.mp0 = s.mp0 := rfl
@[simp] theorem State.settleAges_mp1 (s : State) : s.settleAges.mp1 = s.mp1 := rfl
@[simp] theorem State.settleAges_bp (s : State) : s.settleAges.bp = s.bp := rfl
@[simp] theorem State.settleAges_tblp (s : State) : s.settleAges.tblp = s.tblp := rfl
@[simp] theorem State.settleAges_tblh (s : State) : s.settleAges.tblh = s.tblh := rfl
@[simp] theorem State.settleAges_tbhp (s : State) : s.settleAges.tbhp = s.tbhp := rfl
@[simp] theorem State.settleAges_intc (s : State) : s.settleAges.intc = s.intc := rfl
@[simp] theorem State.settleAges_ram (s : State) : s.settleAges.ram = s.ram := rfl
@[simp] theorem State.settleAges_rom (s : State) : s.settleAges.rom = s.rom := rfl
@[simp] theorem State.settleAges_timer (s : State) : s.settleAges.timer = s.timer := rfl
@[simp] theorem State.settleAges_wdt (s : State) : s.settleAges.wdt = s.wdt := rfl
@[simp] theorem State.settleAges_ports (s : State) : s.settleAges.ports = s.ports := rfl
@[simp] theorem State.settleAges_usb (s : State) : s.settleAges.usb = s.usb := rfl
@[simp] theorem State.settleAges_halt (s : State) : s.settleAges.halt = s.halt := rfl
@[simp] theorem State.settleAges_config (s : State) : s.settleAges.config = s.config := rfl
@[simp] theorem State.settleAges_env (s : State) : s.settleAges.env = s.env := rfl
@[simp] theorem State.settleAges_gap (s : State) : s.settleAges.gap = s.gap := rfl
@[simp] theorem State.settleAges_cyc (s : State) : s.settleAges.cyc = s.cyc := rfl
@[simp] theorem State.settleAges_draws (s : State) : s.settleAges.draws = s.draws := rfl

@[simp] theorem State.ageRequests_acc (s : State) : s.ageRequests.acc = s.acc := rfl
@[simp] theorem State.ageRequests_pc (s : State) : s.ageRequests.pc = s.pc := rfl
@[simp] theorem State.ageRequests_flags (s : State) : s.ageRequests.flags = s.flags := rfl
@[simp] theorem State.ageRequests_stk (s : State) : s.ageRequests.stk = s.stk := rfl
@[simp] theorem State.ageRequests_mp0 (s : State) : s.ageRequests.mp0 = s.mp0 := rfl
@[simp] theorem State.ageRequests_mp1 (s : State) : s.ageRequests.mp1 = s.mp1 := rfl
@[simp] theorem State.ageRequests_bp (s : State) : s.ageRequests.bp = s.bp := rfl
@[simp] theorem State.ageRequests_tblp (s : State) : s.ageRequests.tblp = s.tblp := rfl
@[simp] theorem State.ageRequests_tblh (s : State) : s.ageRequests.tblh = s.tblh := rfl
@[simp] theorem State.ageRequests_tbhp (s : State) : s.ageRequests.tbhp = s.tbhp := rfl
@[simp] theorem State.ageRequests_intc (s : State) : s.ageRequests.intc = s.intc := rfl
@[simp] theorem State.ageRequests_ram (s : State) : s.ageRequests.ram = s.ram := rfl
@[simp] theorem State.ageRequests_rom (s : State) : s.ageRequests.rom = s.rom := rfl
@[simp] theorem State.ageRequests_timer (s : State) : s.ageRequests.timer = s.timer := rfl
@[simp] theorem State.ageRequests_wdt (s : State) : s.ageRequests.wdt = s.wdt := rfl
@[simp] theorem State.ageRequests_ports (s : State) : s.ageRequests.ports = s.ports := rfl
@[simp] theorem State.ageRequests_usb (s : State) : s.ageRequests.usb = s.usb := rfl
@[simp] theorem State.ageRequests_halt (s : State) : s.ageRequests.halt = s.halt := rfl
@[simp] theorem State.ageRequests_config (s : State) : s.ageRequests.config = s.config := rfl
@[simp] theorem State.ageRequests_env (s : State) : s.ageRequests.env = s.env := rfl
@[simp] theorem State.ageRequests_gap (s : State) : s.ageRequests.gap = s.gap := rfl
@[simp] theorem State.ageRequests_cyc (s : State) : s.ageRequests.cyc = s.cyc := rfl
@[simp] theorem State.ageRequests_draws (s : State) : s.ageRequests.draws = s.draws := rfl

end Sys2Proof.Machine
end

