-- ==== Sys2Proof/Laws/Operands.lean ====
section
/-! SUPPORT. What the shared operations can do, each said once: reads and writes of a location, the operand forms, the
returns. -/

namespace Sys2Proof.Machine

theorem andThen_next {o : Out} {k : State → Out} {t : State} :
    andThen o k = .next t ↔ ∃ s, o = .next s ∧ k s = .next t := by
  cases o <;> simp [andThen]

theorem withLoc_next {m : DataAddr} {s t : State} {k : Loc → Out} :
    withLoc m s k = .next t ↔ ea m s ≠ .unmapped ∧ k (ea m s) = .next t := by
  unfold withLoc
  split <;> simp_all

theorem memWrite_next {l : Loc} {v : Byte} {s t : State} :
    memWrite l v s = .next t ↔ l.accepts v = true ∧ t = storeLoc l v s := by
  unfold memWrite
  split
  · rename_i h
    rw [Host.Outcome.next.injEq, eq_comm]
    exact ⟨fun e => ⟨h, e⟩, fun e => e.2⟩
  · rename_i h
    split <;> exact ⟨fun e => (by cases e), fun e => absurd e.1 h⟩

theorem memWrite_accepted {l : Loc} {v : Byte} {s : State} (h : l.accepts v = true) :
    memWrite l v s = .next (storeLoc l v s) := memWrite_next.2 ⟨h, rfl⟩

theorem accForm_next {m : DataAddr} {s t : State} {f : State → Byte → Byte × Flags} :
    accForm m s f = .next t ↔
      ea m s ≠ .unmapped ∧ t = (memRead (ea m s) s).2.toAcc (f (memRead (ea m s) s).2 (memRead (ea m s) s).1) := by
  rw [accForm, withLoc_next, Host.Outcome.next.injEq, eq_comm (a := t)]

theorem modifyFlagForm_next {m : DataAddr} {s t : State} {f : State → Byte → Byte × Flags} :
    modifyFlagForm m s f = .next t ↔
      ea m s ≠ .unmapped ∧ ea m s ≠ .status ∧
        (ea m s).accepts (f (memRead (ea m s) s).2 (memRead (ea m s) s).1).1 = true ∧
        t = storeLoc (ea m s) (f (memRead (ea m s) s).2 (memRead (ea m s) s).1).1
          (((memRead (ea m s) s).2.setFlags (f (memRead (ea m s) s).2 (memRead (ea m s) s).1).2).addCycles 1) := by
  unfold modifyFlagForm
  rw [withLoc_next]
  split <;> simp_all [memWrite_next]

theorem modifyForm_next {m : DataAddr} {s t : State} {f : Byte → Byte} :
    modifyForm m s f = .next t ↔
      ea m s ≠ .unmapped ∧ (ea m s).accepts (f (memRead (ea m s) s).1) = true ∧
        t = storeLoc (ea m s) (f (memRead (ea m s) s).1) ((memRead (ea m s) s).2.addCycles 1) := by
  simp [modifyForm, withLoc_next, memWrite_next]

theorem storeForm_next {m : DataAddr} {s t : State} {v : Byte} :
    storeForm m s v = .next t ↔
      ea m s ≠ .unmapped ∧ (ea m s).accepts v = true ∧ t = storeLoc (ea m s) v (s.addCycles 1) := by
  simp [storeForm, withLoc_next, memWrite_next]

theorem testSkipForm_next {m : DataAddr} {s t : State} {test : Byte → Bool} :
    testSkipForm m s test = .next t ↔
      ea m s ≠ .unmapped ∧ t = ((memRead (ea m s) s).2.addCycles 1).skipIf (test (memRead (ea m s) s).1) := by
  rw [testSkipForm, withLoc_next, Host.Outcome.next.injEq, eq_comm (a := t)]

theorem accSkipForm_next {m : DataAddr} {s t : State} {f : Byte → Byte} :
    accSkipForm m s f = .next t ↔
      ea m s ≠ .unmapped ∧
        t = (((memRead (ea m s) s).2.setAcc (f (memRead (ea m s) s).1)).addCycles 1).skipIf
          (f (memRead (ea m s) s).1 == 0x00#8) := by
  rw [accSkipForm, withLoc_next, Host.Outcome.next.injEq, eq_comm (a := t)]

theorem modifySkipForm_next {m : DataAddr} {s t : State} {f : Byte → Byte} :
    modifySkipForm m s f = .next t ↔
      ea m s ≠ .unmapped ∧ ea m s ≠ .pcl ∧ (ea m s).accepts (f (memRead (ea m s) s).1) = true ∧
        t = storeLoc (ea m s) (f (memRead (ea m s) s).1)
          (((memRead (ea m s) s).2.addCycles 1).skipIf (f (memRead (ea m s) s).1 == 0x00#8)) := by
  unfold modifySkipForm
  rw [withLoc_next]
  split <;> simp_all [memWrite_next]

theorem tableRead_next {a : ProgAddr} {m : DataAddr} {s t : State} :
    tableRead a m s = .next t ↔
      ea m s ≠ .unmapped ∧ (ea m s).accepts ((s.romWord a).extractLsb' 0 8) = true ∧
        t = storeLoc (ea m s) ((s.romWord a).extractLsb' 0 8)
          ({ s with tblh := (0#1 ++ (s.romWord a).extractLsb' 8 6 : BitVec (1 + 6)) }.addCycles 2) := by
  simp [tableRead, withLoc_next, memWrite_next]

theorem popPc_next {s t : State} :
    s.popPc = .next t ↔ ∃ a rest, s.stk = a :: rest ∧ t = (s.setStk rest).setPc a := by
  unfold State.popPc
  split <;> simp_all [eq_comm]

theorem returnWith_next {s t : State} {g : State → State} :
    returnWith s g = .next t ↔
      ∃ a rest, s.stk = a :: rest ∧ t = (g ((s.setStk rest).setPc a)).addCycles 2 := by
  simp only [returnWith, andThen_next, popPc_next]
  constructor
  · rintro ⟨u, ⟨a, rest, h1, rfl⟩, h⟩
    exact ⟨a, rest, h1, by simpa [eq_comm] using h⟩
  · rintro ⟨a, rest, h1, rfl⟩
    exact ⟨_, ⟨a, rest, h1, rfl⟩, rfl⟩

/-! What a read of a location leaves: only the timer's low-byte buffer, the FIFOs with Len0, the 2 µs waits and the
count of free values can change (20_memory.md R114). -/

theorem State.readMisc_state (s : State) : s.readMisc.2 = s ∨ s.readMisc.2 = s.addDraws 1 := by
  unfold State.readMisc
  split <;> simp

/-- What a read of a FIFO register leaves. -/
theorem State.readFifo_state (s : State) (k : Endpoint) :
    ∃ u g n, (s.readFifo k).2 = ((s.setUsb u).setGap g).addDraws n ∧
      (u = s.usb ∨ u = s.usb.readAction k ∨ u = (s.usb.readAction k).setFifo k (s.usb.fifo k).pop) ∧
      (g = s.gap ∨ g = { s.gap with read := startGap s.config }) ∧ n ≤ 2 := by
  unfold State.readFifo
  split
  · simp only
    split
    · split
      · refine ⟨_, _, 2, rfl, ?_, Or.inr rfl, by decide⟩
        split
        · exact Or.inr (Or.inr rfl)
        · exact Or.inr (Or.inl rfl)
      · exact ⟨(s.usb.readAction k).setFifo k (s.usb.fifo k).pop, { s.gap with read := startGap s.config }, 0, rfl,
          Or.inr (Or.inr rfl), Or.inr rfl, by decide⟩
    · exact ⟨s.usb.readAction k, s.gap, 1, rfl, Or.inr (Or.inl rfl), Or.inl rfl, by decide⟩
  · exact ⟨s.usb, s.gap, 1, rfl, Or.inl rfl, Or.inl rfl, by decide⟩

/-- What a write of a FIFO register leaves. -/
theorem State.writeFifo_state (s : State) (k : Endpoint) (v : Byte) :
    ∃ u g, s.writeFifo k v = (s.setUsb u).setGap g ∧
      (u = s.usb ∨ (u = s.usb.setFifo k ((s.usb.fifo k).append v) ∧ (s.usb.fifo k).writable = true)) ∧
      (g = s.gap ∨ g = { s.gap with write := startGap s.config }) := by
  unfold State.writeFifo
  simp only
  split
  · rename_i hw
    rw [Bool.and_eq_true] at hw
    split
    · exact ⟨s.usb, _, rfl, Or.inl rfl, Or.inr rfl⟩
    · exact ⟨_, _, rfl, Or.inr ⟨rfl, hw.2⟩, Or.inr rfl⟩
  · exact ⟨s.usb, s.gap, rfl, Or.inl rfl, Or.inl rfl⟩

/-- A read changes nothing but the timer's buffer, the USB block, the waits and the count of free values. -/
theorem memRead_state (l : Loc) (s : State) :
    ∃ w u g n, (memRead l s).2 = (((s.setTimer w).setUsb u).setGap g).addDraws n ∧
      (w = s.timer ∨ (l = .tmrh ∧ w = s.timer.latchLow)) ∧
      (u = s.usb ∨ ∃ k, l = .fifo k ∧
        (u = s.usb.readAction k ∨ u = (s.usb.readAction k).setFifo k (s.usb.fifo k).pop)) ∧
      (g = s.gap ∨ g = { s.gap with read := startGap s.config }) := by
  have h0 : ∀ n, ∃ w u g k, s.addDraws n = (((s.setTimer w).setUsb u).setGap g).addDraws k ∧
      (w = s.timer ∨ (l = .tmrh ∧ w = s.timer.latchLow)) ∧
      (u = s.usb ∨ ∃ k, l = .fifo k ∧
        (u = s.usb.readAction k ∨ u = (s.usb.readAction k).setFifo k (s.usb.fifo k).pop)) ∧
      (g = s.gap ∨ g = { s.gap with read := startGap s.config }) := fun n =>
    ⟨s.timer, s.usb, s.gap, n, rfl, Or.inl rfl, Or.inl rfl, Or.inl rfl⟩
  cases l
  case tmrh => exact ⟨s.timer.latchLow, s.usb, s.gap, 0, rfl, Or.inr ⟨rfl, rfl⟩, Or.inl rfl, Or.inl rfl⟩
  case fifo k =>
    obtain ⟨u, g, n, h1, h2, h3, -⟩ := s.readFifo_state k
    refine ⟨s.timer, u, g, n, h1, Or.inl rfl, ?_, h3⟩
    rcases h2 with h2 | h2
    · exact Or.inl h2
    · exact Or.inr ⟨k, rfl, h2⟩
  case misc =>
    rcases s.readMisc_state with h | h
    · exact h.symm ▸ h0 0
    · exact h.symm ▸ h0 1
  case pb => exact h0 1
  case pbc => exact h0 1
  case usc => exact h0 1
  case unmapped => exact h0 1
  all_goals exact h0 0

section
variable (l : Loc) (s : State)
@[simp] theorem memRead_acc : (memRead l s).2.acc = s.acc := by
  obtain ⟨w, u, g, n, h, -⟩ := memRead_state l s
  rw [h]; rfl
@[simp] theorem memRead_pc : (memRead l s).2.pc = s.pc := by
  obtain ⟨w, u, g, n, h, -⟩ := memRead_state l s
  rw [h]; rfl
@[simp] theorem memRead_flags : (memRead l s).2.flags = s.flags := by
  obtain ⟨w, u, g, n, h, -⟩ := memRead_state l s
  rw [h]; rfl
@[simp] theorem memRead_stk : (memRead l s).2.stk = s.stk := by
  obtain ⟨w, u, g, n, h, -⟩ := memRead_state l s
  rw [h]; rfl
@[simp] theorem memRead_mp0 : (memRead l s).2.mp0 = s.mp0 := by
  obtain ⟨w, u, g, n, h, -⟩ := memRead_state l s
  rw [h]; rfl
@[simp] theorem memRead_mp1 : (memRead l s).2.mp1 = s.mp1 := by
  obtain ⟨w, u, g, n, h, -⟩ := memRead_state l s
  rw [h]; rfl
@[simp] theorem memRead_bp : (memRead l s).2.bp = s.bp := by
  obtain ⟨w, u, g, n, h, -⟩ := memRead_state l s
  rw [h]; rfl
@[simp] theorem memRead_tblp : (memRead l s).2.tblp = s.tblp := by
  obtain ⟨w, u, g, n, h, -⟩ := memRead_state l s
  rw [h]; rfl
@[simp] theorem memRead_tblh : (memRead l s).2.tblh = s.tblh := by
  obtain ⟨w, u, g, n, h, -⟩ := memRead_state l s
  rw [h]; rfl
@[simp] theorem memRead_tbhp : (memRead l s).2.tbhp = s.tbhp := by
  obtain ⟨w, u, g, n, h, -⟩ := memRead_state l s
  rw [h]; rfl
@[simp] theorem memRead_intc : (memRead l s).2.intc = s.intc := by
  obtain ⟨w, u, g, n, h, -⟩ := memRead_state l s
  rw [h]; rfl
@[simp] theorem memRead_ram : (memRead l s).2.ram = s.ram := by
  obtain ⟨w, u, g, n, h, -⟩ := memRead_state l s
  rw [h]; rfl
@[simp] theorem memRead_rom : (memRead l s).2.rom = s.rom := by
  obtain ⟨w, u, g, n, h, -⟩ := memRead_state l s
  rw [h]; rfl
@[simp] theorem memRead_wdt : (memRead l s).2.wdt = s.wdt := by
  obtain ⟨w, u, g, n, h, -⟩ := memRead_state l s
  rw [h]; rfl
@[simp] theorem memRead_ports : (memRead l s).2.ports = s.ports := by
  obtain ⟨w, u, g, n, h, -⟩ := memRead_state l s
  rw [h]; rfl
@[simp] theorem memRead_halt : (memRead l s).2.halt = s.halt := by
  obtain ⟨w, u, g, n, h, -⟩ := memRead_state l s
  rw [h]; rfl
@[simp] theorem memRead_config : (memRead l s).2.config = s.config := by
  obtain ⟨w, u, g, n, h, -⟩ := memRead_state l s
  rw [h]; rfl
@[simp] theorem memRead_env : (memRead l s).2.env = s.env := by
  obtain ⟨w, u, g, n, h, -⟩ := memRead_state l s
  rw [h]; rfl
@[simp] theorem memRead_irqAge : (memRead l s).2.irqAge = s.irqAge := by
  obtain ⟨w, u, g, n, h, -⟩ := memRead_state l s
  rw [h]; rfl
@[simp] theorem memRead_cyc : (memRead l s).2.cyc = s.cyc := by
  obtain ⟨w, u, g, n, h, -⟩ := memRead_state l s
  rw [h]; rfl
end

/-! What a write of a location keeps, whatever the location. -/

theorem State.writeMisc_stk (s : State) (v : Byte) : (s.writeMisc v).stk = s.stk := by
  unfold State.writeMisc
  simp only
  split <;> rfl
theorem State.writeFifo_stk (s : State) (k : Endpoint) (v : Byte) : (s.writeFifo k v).stk = s.stk := by
  obtain ⟨u, g, h, -⟩ := s.writeFifo_state k v
  rw [h]; rfl
theorem State.writeMisc_tblh (s : State) (v : Byte) : (s.writeMisc v).tblh = s.tblh := by
  unfold State.writeMisc
  simp only
  split <;> rfl
theorem State.writeFifo_tblh (s : State) (k : Endpoint) (v : Byte) : (s.writeFifo k v).tblh = s.tblh := by
  obtain ⟨u, g, h, -⟩ := s.writeFifo_state k v
  rw [h]; rfl
theorem State.writeMisc_rom (s : State) (v : Byte) : (s.writeMisc v).rom = s.rom := by
  unfold State.writeMisc
  simp only
  split <;> rfl
theorem State.writeFifo_rom (s : State) (k : Endpoint) (v : Byte) : (s.writeFifo k v).rom = s.rom := by
  obtain ⟨u, g, h, -⟩ := s.writeFifo_state k v
  rw [h]; rfl
theorem State.writeMisc_halt (s : State) (v : Byte) : (s.writeMisc v).halt = s.halt := by
  unfold State.writeMisc
  simp only
  split <;> rfl
theorem State.writeFifo_halt (s : State) (k : Endpoint) (v : Byte) : (s.writeFifo k v).halt = s.halt := by
  obtain ⟨u, g, h, -⟩ := s.writeFifo_state k v
  rw [h]; rfl
theorem State.writeMisc_config (s : State) (v : Byte) : (s.writeMisc v).config = s.config := by
  unfold State.writeMisc
  simp only
  split <;> rfl
theorem State.writeFifo_config (s : State) (k : Endpoint) (v : Byte) : (s.writeFifo k v).config = s.config := by
  obtain ⟨u, g, h, -⟩ := s.writeFifo_state k v
  rw [h]; rfl
theorem State.writeMisc_env (s : State) (v : Byte) : (s.writeMisc v).env = s.env := by
  unfold State.writeMisc
  simp only
  split <;> rfl
theorem State.writeFifo_env (s : State) (k : Endpoint) (v : Byte) : (s.writeFifo k v).env = s.env := by
  obtain ⟨u, g, h, -⟩ := s.writeFifo_state k v
  rw [h]; rfl
theorem State.writeMisc_irqAge (s : State) (v : Byte) : (s.writeMisc v).irqAge = s.irqAge := by
  unfold State.writeMisc
  simp only
  split <;> rfl
theorem State.writeFifo_irqAge (s : State) (k : Endpoint) (v : Byte) : (s.writeFifo k v).irqAge = s.irqAge := by
  obtain ⟨u, g, h, -⟩ := s.writeFifo_state k v
  rw [h]; rfl

section
variable (l : Loc) (v : Byte) (s : State)
@[simp] theorem storeLoc_stk : (storeLoc l v s).stk = s.stk := by
  cases l <;> try rfl
  · exact State.writeMisc_stk s v
  · exact State.writeFifo_stk s _ v
@[simp] theorem storeLoc_tblh : (storeLoc l v s).tblh = s.tblh := by
  cases l <;> try rfl
  · exact State.writeMisc_tblh s v
  · exact State.writeFifo_tblh s _ v
@[simp] theorem storeLoc_rom : (storeLoc l v s).rom = s.rom := by
  cases l <;> try rfl
  · exact State.writeMisc_rom s v
  · exact State.writeFifo_rom s _ v
@[simp] theorem storeLoc_halt : (storeLoc l v s).halt = s.halt := by
  cases l <;> try rfl
  · exact State.writeMisc_halt s v
  · exact State.writeFifo_halt s _ v
@[simp] theorem storeLoc_config : (storeLoc l v s).config = s.config := by
  cases l <;> try rfl
  · exact State.writeMisc_config s v
  · exact State.writeFifo_config s _ v
@[simp] theorem storeLoc_env : (storeLoc l v s).env = s.env := by
  cases l <;> try rfl
  · exact State.writeMisc_env s v
  · exact State.writeFifo_env s _ v
@[simp] theorem storeLoc_irqAge : (storeLoc l v s).irqAge = s.irqAge := by
  cases l <;> try rfl
  · exact State.writeMisc_irqAge s v
  · exact State.writeFifo_irqAge s _ v
end

end Sys2Proof.Machine
end

