-- ==== Sys2Proof/Laws/Invariant.lean ====
section
/-! SUPPORT. Every shared operation keeps `State.DataInv`. -/

namespace Sys2Proof.Machine

/-- The part of the invariant that is about the USB block. -/
def Usb.ok (u : Usb) : Prop :=
  u.fifo0.bytes.length ≤ 8 ∧ u.fifo1.bytes.length ≤ 8 ∧ u.pipe &&& ~~~(u.usr &&& 0x03#8) = 0x00#8

/-- The part of the invariant that is about the port registers. -/
def Ports.ok (p : Ports) : Prop := p.pb &&& ~~~portBMask = 0x00#8 ∧ p.pbc &&& ~~~portBMask = 0x00#8

namespace State.DataInv
variable {s : State}

theorem usbOk (h : s.DataInv) : s.usb.ok := ⟨h.fifo0Size, h.fifo1Size, h.pipeFlags⟩

theorem portsOk (h : s.DataInv) : s.ports.ok := ⟨h.portBLatch, h.portBControl⟩

/-- The invariant reads only these fields. -/
theorem congr {t : State} (h : s.DataInv) (hram : t.ram = s.ram) (hrom : t.rom = s.rom) (hstk : t.stk = s.stk)
    (husb : t.usb = s.usb) (hports : t.ports = s.ports) (hgap : t.gap = s.gap) (hcfg : t.config = s.config) :
    t.DataInv := by
  obtain ⟨h1, h2, h3, h4, h5, h6, h7, h8, h9, h10, h11⟩ := h
  constructor <;> simp_all

theorem setAcc (h : s.DataInv) (v : Byte) : (s.setAcc v).DataInv :=
  ⟨h.1, h.2, h.3, h.4, h.5, h.6, h.7, h.8, h.9, h.10, h.11⟩

theorem setPc (h : s.DataInv) (a : ProgAddr) : (s.setPc a).DataInv :=
  ⟨h.1, h.2, h.3, h.4, h.5, h.6, h.7, h.8, h.9, h.10, h.11⟩

theorem setFlags (h : s.DataInv) (f : Flags) : (s.setFlags f).DataInv :=
  ⟨h.1, h.2, h.3, h.4, h.5, h.6, h.7, h.8, h.9, h.10, h.11⟩

theorem setIntc (h : s.DataInv) (i : Intc) : (s.setIntc i).DataInv :=
  ⟨h.1, h.2, h.3, h.4, h.5, h.6, h.7, h.8, h.9, h.10, h.11⟩

theorem setTimer (h : s.DataInv) (t : Timer) : (s.setTimer t).DataInv :=
  ⟨h.1, h.2, h.3, h.4, h.5, h.6, h.7, h.8, h.9, h.10, h.11⟩

theorem setWdt (h : s.DataInv) (w : Wdt) : (s.setWdt w).DataInv :=
  ⟨h.1, h.2, h.3, h.4, h.5, h.6, h.7, h.8, h.9, h.10, h.11⟩

theorem setHalt (h : s.DataInv) (x : Halt) : (s.setHalt x).DataInv :=
  ⟨h.1, h.2, h.3, h.4, h.5, h.6, h.7, h.8, h.9, h.10, h.11⟩

theorem addCycles (h : s.DataInv) (n : Nat) : (s.addCycles n).DataInv :=
  ⟨h.1, h.2, h.3, h.4, h.5, h.6, h.7, h.8, h.9, h.10, h.11⟩

theorem addDraws (h : s.DataInv) (n : Nat) : (s.addDraws n).DataInv :=
  ⟨h.1, h.2, h.3, h.4, h.5, h.6, h.7, h.8, h.9, h.10, h.11⟩

theorem settleAges (h : s.DataInv) : s.settleAges.DataInv :=
  ⟨h.1, h.2, h.3, h.4, h.5, h.6, h.7, h.8, h.9, h.10, h.11⟩

theorem ageRequests (h : s.DataInv) : s.ageRequests.DataInv :=
  ⟨h.1, h.2, h.3, h.4, h.5, h.6, h.7, h.8, h.9, h.10, h.11⟩

theorem setUsb (h : s.DataInv) {u : Usb} (hu : u.ok) : (s.setUsb u).DataInv :=
  ⟨h.1, h.2, h.3, h.4, h.5, hu.1, hu.2.1, h.8, h.9, hu.2.2, h.11⟩

theorem setPorts (h : s.DataInv) {p : Ports} (hp : p.ok) : (s.setPorts p).DataInv :=
  ⟨h.1, h.2, h.3, h.4, h.5, h.6, h.7, hp.1, hp.2, h.10, h.11⟩

theorem setStk (h : s.DataInv) {l : List ProgAddr} (hl : l.length ≤ 4) : (s.setStk l).DataInv :=
  ⟨h.1, h.2, h.3, h.4, hl, h.6, h.7, h.8, h.9, h.10, h.11⟩

theorem setGap (h : s.DataInv) {g : Gap} (hg : g.atMost (fifoGap s.config)) : (s.setGap g).DataInv :=
  ⟨h.1, h.2, h.3, h.4, h.5, h.6, h.7, h.8, h.9, h.10, hg⟩

theorem push (h : s.DataInv) (a : ProgAddr) : (s.push a).DataInv :=
  h.setStk (by rw [List.length_take]; omega)

theorem skip (h : s.DataInv) : s.skip.DataInv := ⟨h.1, h.2, h.3, h.4, h.5, h.6, h.7, h.8, h.9, h.10, h.11⟩

theorem skipIf (h : s.DataInv) (c : Bool) : (s.skipIf c).DataInv := by
  unfold State.skipIf
  split
  · exact h.skip
  · exact h

end State.DataInv

/-! The USB block. -/

theorem Fifo.length_append_of_writable {f : Fifo} {v : Byte} (h : f.writable = true) :
    (f.append v).bytes.length ≤ 8 := by
  unfold Fifo.writable at h
  rw [Bool.and_eq_true] at h
  obtain ⟨bytes, mark, busy⟩ := f
  cases mark
  · have : bytes = [] := by simpa using h.2
    simp [Fifo.append, this]
  · have : bytes.length < 8 := by simpa using h.2
    simp only [Fifo.append, List.length_append, List.length_cons, List.length_nil]
    omega
  · simp at h

theorem Usb.ok_setFifo {u : Usb} {k : Endpoint} {f : Fifo} (hu : u.ok) (hf : f.bytes.length ≤ 8) : (u.setFifo k f).ok := by
  cases k
  · exact ⟨hf, hu.2.1, hu.2.2⟩
  · exact ⟨hu.1, hf, hu.2.2⟩

theorem Usb.ok_fifo {u : Usb} (hu : u.ok) (k : Endpoint) : (u.fifo k).bytes.length ≤ 8 := by
  cases k
  · exact hu.1
  · exact hu.2.1

theorem Usb.ok_mapFifo {u : Usb} {k : Option Endpoint} {g : Fifo → Fifo} (hu : u.ok)
    (hg : ∀ f : Fifo, f.bytes.length ≤ 8 → (g f).bytes.length ≤ 8) : (u.mapFifo k g).ok := by
  cases k
  · exact hu
  · exact ok_setFifo hu (hg _ (ok_fifo hu _))

theorem Usb.ok_readAction {u : Usb} (hu : u.ok) (k : Endpoint) : (u.readAction k).ok := by
  cases k <;> exact hu

theorem Fifo.length_pop {f : Fifo} (h : f.bytes.length ≤ 8) : f.pop.bytes.length ≤ 8 := by
  simp only [Fifo.pop, List.length_tail]
  omega

theorem Fifo.length_commit {f : Fifo} {w : Bool} (h : f.bytes.length ≤ 8) : (f.commit w).bytes.length ≤ 8 := by
  unfold Fifo.commit
  split
  · simp only
    split
    · exact h
    · simp
  · simp

theorem Usb.ok_writeMisc {u : Usb} (hu : u.ok) (v : Byte) : (u.writeMisc v).ok := by
  have h1 : ∀ w : Usb, w.ok → ({ w with misc := Misc.ofByte v } : Usb).ok := fun w hw => hw
  have h2 : (if u.misc.request && (Misc.ofByte v).request && (u.misc.tx != (Misc.ofByte v).tx) then
      u.mapFifo u.misc.selected (·.commit u.misc.tx) else u).ok := by
    split
    · exact ok_mapFifo hu fun f hf => Fifo.length_commit hf
    · exact hu
  unfold Usb.writeMisc
  simp only
  split
  · exact ok_mapFifo (h1 _ h2) fun f _ => by simp [Fifo.emptied]
  · exact h1 _ h2

/-- Clearing the EPkIF bits clears the PIPE bits beside them. -/
theorem pipe_after_clear {p u v : Byte} (h : p &&& ~~~(u &&& 0x03#8) = 0x00#8) :
    (p &&& ~~~(u &&& ~~~v &&& 0x03#8)) &&& ~~~(v &&& 0x03#8) = 0x00#8 := by
  apply BitVec.eq_of_getLsbD_eq
  intro i hi
  have hb := congrArg (·.getLsbD i) h
  simp only [BitVec.getLsbD_and, BitVec.getLsbD_not, hi, decide_true, Bool.true_and, BitVec.getLsbD_zero] at hb ⊢
  revert hb
  generalize p.getLsbD i = a
  generalize u.getLsbD i = b
  generalize v.getLsbD i = c
  generalize (0x03#8).getLsbD i = d
  revert a b c d
  decide

/-- Raising an EPkIF with its PIPE bit keeps them together. -/
theorem pipe_after_raise {p u : Byte} (k : Endpoint) (h : p &&& ~~~(u &&& 0x03#8) = 0x00#8) :
    setBitTo p k.bit true &&& ~~~(setBitTo u k.bit true &&& 0x03#8) = 0x00#8 := by
  have hm : bitMask k.bit &&& ~~~(0x03#8) = 0x00#8 := by cases k <;> decide
  simp only [setBitTo, if_true]
  generalize bitMask k.bit = m at hm
  apply BitVec.eq_of_getLsbD_eq
  intro i hi
  have hb := congrArg (·.getLsbD i) h
  have hc := congrArg (·.getLsbD i) hm
  simp only [BitVec.getLsbD_and, BitVec.getLsbD_or, BitVec.getLsbD_not, hi, decide_true, Bool.true_and,
    BitVec.getLsbD_zero] at hb hc ⊢
  revert hb hc
  generalize p.getLsbD i = a
  generalize u.getLsbD i = b
  generalize m.getLsbD i = c
  generalize (0x03#8).getLsbD i = d
  revert a b c d
  decide

theorem Usb.ok_writeUsr {u : Usb} (hu : u.ok) (v : Byte) : (u.writeUsr v).ok :=
  ⟨hu.1, hu.2.1, pipe_after_clear hu.2.2⟩

theorem Usb.ok_hostFills {u : Usb} (hu : u.ok) (k : Endpoint) (bytes : List Byte) : (u.hostFills k bytes).ok :=
  ok_setFifo hu (by simp only [List.length_take]; omega)

theorem Usb.ok_zeroPacket {u : Usb} (hu : u.ok) (k : Endpoint) : (u.zeroPacket k).ok := ok_hostFills hu k []

theorem Usb.ok_packetEffect {u : Usb} (hu : u.ok) (k : Endpoint) (p : Packet) : (u.packetEffect k p).ok := by
  cases p with
  | setup bytes => exact ok_hostFills hu k bytes
  | out bytes =>
    unfold Usb.packetEffect
    simp only
    split
    · exact ok_zeroPacket hu k
    · exact ok_hostFills hu k bytes
  | outZero => exact ok_zeroPacket hu k
  | inTaken =>
    unfold Usb.packetEffect
    simp only
    split
    · exact ok_hostFills hu k []
    · exact ok_hostFills hu k []
  | naked => exact hu

namespace State.DataInv
variable {s : State}

theorem readFifo (h : s.DataInv) (k : Endpoint) : (s.readFifo k).2.DataInv := by
  obtain ⟨u, g, n, h1, h2, h3, -⟩ := s.readFifo_state k
  rw [h1]
  refine ((h.setUsb ?_).setGap ?_).addDraws n
  · rcases h2 with rfl | rfl | rfl
    · exact h.usbOk
    · exact Usb.ok_readAction h.usbOk k
    · exact Usb.ok_setFifo (Usb.ok_readAction h.usbOk k) (Fifo.length_pop (Usb.ok_fifo h.usbOk k))
  · rcases h3 with rfl | rfl
    · exact h.gapLength
    · exact ⟨h.gapLength.1, Nat.le_refl _, h.gapLength.2.2⟩

theorem writeFifo (h : s.DataInv) (k : Endpoint) (v : Byte) : (s.writeFifo k v).DataInv := by
  obtain ⟨u, g, h1, h2, h3⟩ := s.writeFifo_state k v
  rw [h1]
  refine (h.setUsb ?_).setGap ?_
  · rcases h2 with rfl | ⟨rfl, hw⟩
    · exact h.usbOk
    · exact Usb.ok_setFifo h.usbOk (Fifo.length_append_of_writable hw)
  · rcases h3 with rfl | rfl
    · exact h.gapLength
    · exact ⟨h.gapLength.1, h.gapLength.2.1, Nat.le_refl _⟩

theorem writeMisc (h : s.DataInv) (v : Byte) : (s.writeMisc v).DataInv := by
  have h1 := h.setUsb (Usb.ok_writeMisc h.usbOk v)
  unfold State.writeMisc
  simp only
  split
  · exact h1.setGap ⟨Nat.le_refl _, h1.gapLength.2⟩
  · exact h1

/-- A read of a location keeps the invariant. -/
theorem memRead (h : s.DataInv) (l : Loc) : (memRead l s).2.DataInv := by
  cases l
  case fifo k => exact h.readFifo k
  case misc =>
    rcases s.readMisc_state with e | e
    · exact e.symm ▸ h
    · exact e.symm ▸ h.addDraws 1
  case tmrh => exact h.setTimer _
  case pb => exact h.addDraws 1
  case pbc => exact h.addDraws 1
  case usc => exact h.addDraws 1
  case unmapped => exact h.addDraws 1
  all_goals exact h

end State.DataInv

/-- The RAM locations that an operand resolves to lie in 20H to 7FH. -/
theorem bank0_ram {m a : DataAddr} (h : bank0 m = .ram a) : a = m ∧ 0x20 ≤ a.toNat := by
  unfold bank0 at h
  split at h <;> try exact absurd h (by simp)
  split at h
  · exact absurd h (by simp)
  · cases h
    exact ⟨rfl, by omega⟩

theorem bank1_not_ram (m a : DataAddr) : bank1 m ≠ .ram a := by
  unfold bank1
  split <;> simp

theorem ea_ram {m a : DataAddr} {s : State} (h : ea m s = .ram a) : 0x20 ≤ a.toNat ∧ a.toNat < 0x80 := by
  refine ⟨?_, a.isLt⟩
  unfold ea at h
  split at h
  · exact (bank0_ram h).2
  · split at h
    · split at h
      · exact (bank0_ram h).2
      · split at h
        · exact absurd h (bank1_not_ram _ _)
        · exact (bank0_ram h).2
    · exact (bank0_ram h).2

theorem portB_masked (v : Byte) : (v &&& portBMask) &&& ~~~portBMask = 0x00#8 := by
  rw [BitVec.and_assoc]
  simp [portBMask]

namespace State.DataInv
variable {s : State}

/-- A write of a location that an operand can resolve to keeps the invariant. -/
theorem storeLoc (h : s.DataInv) {l : Loc} (hl : ∀ a, l = .ram a → 0x20 ≤ a.toNat) (v : Byte) :
    (storeLoc l v s).DataInv := by
  cases l
  case ram a =>
    exact ⟨Memory.wf_write h.1, Memory.within_write h.2 (hl a rfl) a.isLt, h.3, h.4, h.5, h.6, h.7, h.8, h.9, h.10, h.11⟩
  case fifo k => exact h.writeFifo k v
  case misc => exact h.writeMisc v
  case pa => exact h.setPorts h.portsOk
  case pac => exact h.setPorts h.portsOk
  case pb => exact h.setPorts ⟨portB_masked v, h.portsOk.2⟩
  case pbc => exact h.setPorts ⟨h.portsOk.1, portB_masked v⟩
  case usr => exact h.setUsb (Usb.ok_writeUsr h.usbOk v)
  all_goals exact ⟨h.1, h.2, h.3, h.4, h.5, h.6, h.7, h.8, h.9, h.10, h.11⟩

end State.DataInv

end Sys2Proof.Machine
end

