-- ==== Sys2Proof/Laws/Agents.lean ====
section
/-! SUPPORT. What the agents can do, each said once: the timer, the watchdog, the pads, the environment's moves, the
resets; and that each keeps `State.DataInv`. -/

namespace Sys2Proof.Machine

/-- INTC with TF raised or left. -/
def Intc.raiseTf (i : Intc) (b : Bool) : Intc := { i with tf := i.tf || b }

theorem Intc.raiseTf_false (i : Intc) : i.raiseTf false = i := by simp [Intc.raiseTf]

/-- One count changes TCNT, and may raise TF. -/
theorem State.timerCount_state (s : State) :
    ∃ c b, s.timerCount = (s.setTimer { s.timer with cnt := c }).setIntc (s.intc.raiseTf b) := by
  unfold State.timerCount
  split
  · exact ⟨s.timer.pre, true, by simp [State.requestTimer, Intc.raiseTf]⟩
  · exact ⟨s.timer.cnt + 1#16, false, by rw [Intc.raiseTf_false]; rfl⟩

/-- Any number of counts change TCNT, and may raise TF. -/
theorem State.timerCountN_state (n : Nat) (s : State) :
    ∃ c b, State.timerCountN n s = (s.setTimer { s.timer with cnt := c }).setIntc (s.intc.raiseTf b) := by
  induction n generalizing s with
  | zero => exact ⟨s.timer.cnt, false, by rw [Intc.raiseTf_false]; rfl⟩
  | succ n ih =>
    obtain ⟨c, b, h⟩ := s.timerCount_state
    obtain ⟨c', b', h'⟩ := ih s.timerCount
    refine ⟨c', b || b', ?_⟩
    rw [State.timerCountN, h', h]
    simp [State.setTimer, State.setIntc, Intc.raiseTf, Bool.or_assoc]

/-- The counts of an instruction change TCNT, and may raise TF. -/
theorem State.timerRun_state (s : State) (b : Bool) (n : Nat) :
    ∃ c r, s.timerRun b n = (s.setTimer { s.timer with cnt := c }).setIntc (s.intc.raiseTf r) := by
  have h0 : ∃ c r, s = (s.setTimer { s.timer with cnt := c }).setIntc (s.intc.raiseTf r) :=
    ⟨s.timer.cnt, false, by rw [Intc.raiseTf_false]; rfl⟩
  unfold State.timerRun
  split
  · split
    · exact State.timerCountN_state n s
    · split
      · exact State.timerCountN_state n s
      · exact h0
    · exact h0
    · exact h0
  · exact h0

/-- An edge of the TMR input changes the timer, and may raise TF. -/
theorem State.timerEdge_state (s : State) (old new : Bool) :
    ∃ t r, s.timerEdge old new = (s.setTimer t).setIntc (s.intc.raiseTf r) := by
  have h0 : ∀ t, ∃ t' r, s.setTimer t = (s.setTimer t').setIntc (s.intc.raiseTf r) := fun t =>
    ⟨t, false, by rw [Intc.raiseTf_false]; rfl⟩
  unfold State.timerEdge
  split
  · split
    · split
      · obtain ⟨c, b, h⟩ := s.timerCount_state
        exact ⟨_, b, h⟩
      · exact h0 s.timer
    · split
      · exact h0 s.timer
      · split
        · split
          · exact h0 _
          · exact h0 s.timer
        · split
          · exact h0 _
          · exact h0 s.timer
    · exact h0 s.timer
    · exact h0 s.timer
  · exact h0 s.timer

/-- A count reads only the timer and INTC. -/
theorem State.timerCount_congr {s t : State} (ht : t.timer = s.timer) (hi : t.intc = s.intc) :
    t.timerCount.timer = s.timerCount.timer ∧ t.timerCount.intc = s.timerCount.intc := by
  unfold State.timerCount
  rw [ht]
  split
  · exact ⟨rfl, by rw [State.requestTimer, State.setTimer_intc, hi]; rfl⟩
  · exact ⟨rfl, hi⟩

/-- What an edge does reads only the timer, INTC and the halted state. -/
theorem State.timerEdge_congr {s t : State} (ht : t.timer = s.timer) (hi : t.intc = s.intc)
    (hh : t.halt.halted = s.halt.halted) (old new : Bool) :
    (t.timerEdge old new).timer = (s.timerEdge old new).timer ∧
      (t.timerEdge old new).intc = (s.timerEdge old new).intc := by
  unfold State.timerEdge
  rw [ht, hh]
  split
  · split
    · split
      · exact State.timerCount_congr ht hi
      · exact ⟨ht, hi⟩
    · split
      · exact ⟨ht, hi⟩
      · split
        · split
          · exact ⟨rfl, hi⟩
          · exact ⟨ht, hi⟩
        · split
          · exact ⟨rfl, hi⟩
          · exact ⟨ht, hi⟩
    · exact ⟨ht, hi⟩
    · exact ⟨ht, hi⟩
  · exact ⟨ht, hi⟩

/-- A wait only shrinks as cycles pass. -/
theorem Countdown.left_pass (c : Countdown) (n : Nat) : (c.pass n).left ≤ c.left := by
  unfold Countdown.pass
  simp only
  split
  · exact Nat.le_refl _
  · exact Nat.sub_le _ _

theorem Gap.atMost_pass {g : Gap} {n m : Nat} (h : g.atMost n) : (g.pass m).atMost n :=
  ⟨Nat.le_trans (Countdown.left_pass _ _) h.1, Nat.le_trans (Countdown.left_pass _ _) h.2.1,
    Nat.le_trans (Countdown.left_pass _ _) h.2.2⟩

theorem Gap.settled_pass (g : Gap) (m : Nat) : (g.pass m).settled := ⟨rfl, rfl, rfl⟩

/-- The counting of an instruction's cycles changes TCNT and may raise TF, advances the watchdog and shortens the waits.
-/
theorem countInstruction_state (before after : State) :
    ∃ c r w g, countInstruction before after =
        (((after.settleAges.setTimer { after.timer with cnt := c }).setIntc (after.intc.raiseTf r)).setWdt w).setGap g ∧
      w.ws = after.wdt.ws ∧ w.pre = after.wdt.pre ∧ (∀ n, after.gap.atMost n → g.atMost n) ∧ g.settled := by
  obtain ⟨c, r, h⟩ := after.settleAges.timerRun_state before.timer.ctl.ton (after.cyc - before.cyc)
  unfold countInstruction
  simp only [h]
  unfold State.wdtTicks
  split
  · split
    · exact ⟨c, r, _, _, rfl, rfl, rfl, fun _ => Gap.atMost_pass, Gap.settled_pass _ _⟩
    · exact ⟨c, r, after.wdt, _, rfl, rfl, rfl, fun _ => Gap.atMost_pass, Gap.settled_pass _ _⟩
  · exact ⟨c, r, after.wdt, _, rfl, rfl, rfl, fun _ => Gap.atMost_pass, Gap.settled_pass _ _⟩

/-- The sampling of the pads changes the environment's levels, the sampled levels, the edge mark and the timer, and may
raise TF. -/
theorem samplePads_state (p : Pads) (s : State) :
    ∃ a b e t r, samplePads p s =
      ((((({ s with env := { s.env with pads := p } } : State).setPorts { s.ports with seenA := a, seenB := b }).setHalt
        { s.halt with edge := e }).setTimer t).setIntc (s.intc.raiseTf r)) := by
  unfold samplePads
  obtain ⟨t, r, h⟩ := State.timerEdge_state
    (((({ s with env := { s.env with pads := p } } : State).setPorts
      { s.ports with
        seenA := ({ s with env := { s.env with pads := p } } : State).padsA
        seenB := ({ s with env := { s.env with pads := p } } : State).padsB }).setHalt
      { s.halt with
        edge := wakeEdge s.config s.ports.seenA ({ s with env := { s.env with pads := p } } : State).padsA
          s.ports.seenB ({ s with env := { s.env with pads := p } } : State).padsB }))
    (s.ports.seenA.getLsbD 7) ((({ s with env := { s.env with pads := p } } : State).padsA).getLsbD 7)
  exact ⟨_, _, _, t, r, h⟩

/-- INTC with USBF raised or left. -/
def Intc.raiseUsbf (i : Intc) (b : Bool) : Intc := { i with usbf := i.usbf || b }

theorem Intc.raiseUsbf_false (i : Intc) : i.raiseUsbf false = i := by simp [Intc.raiseUsbf]

theorem State.requestUsb_eq (s : State) : s.requestUsb = s.setIntc (s.intc.raiseUsbf true) := by
  simp [State.requestUsb, Intc.raiseUsbf]

/-- A move that is no reset changes the USB block and the watchdog's count, and may raise USBF. -/
theorem applyMove_goesOn {m : EnvMove} {s t : State} (h : applyMove m s = .goesOn t) :
    ∃ u c r, t = ((s.setUsb u).setWdt { s.wdt with cnt := c }).setIntc (s.intc.raiseUsbf r) ∧
      (s.usb.ok → u.ok) := by
  have h0 : ∃ u c r, s = ((s.setUsb u).setWdt { s.wdt with cnt := c }).setIntc (s.intc.raiseUsbf r) ∧
      (s.usb.ok → u.ok) := ⟨s.usb, s.wdt.cnt, false, by rw [Intc.raiseUsbf_false]; rfl, id⟩
  have hu : ∀ u : Usb, (s.usb.ok → u.ok) →
      ∃ u' c r, s.setUsb u = ((s.setUsb u').setWdt { s.wdt with cnt := c }).setIntc (s.intc.raiseUsbf r) ∧
        (s.usb.ok → u'.ok) := fun u k => ⟨u, s.wdt.cnt, false, by rw [Intc.raiseUsbf_false]; rfl, k⟩
  have hr : ∀ u : Usb, (s.usb.ok → u.ok) →
      ∃ u' c r, (s.setUsb u).requestUsb = ((s.setUsb u').setWdt { s.wdt with cnt := c }).setIntc (s.intc.raiseUsbf r) ∧
        (s.usb.ok → u'.ok) := fun u k => ⟨u, s.wdt.cnt, true, by rw [State.requestUsb_eq]; rfl, k⟩
  cases m with
  | powerOn => cases h
  | resLow => cases h
  | lowVoltage =>
    unfold applyMove at h
    simp only at h
    split at h <;> cases h
    exact h0
  | wdtTick =>
    cases h
    split
    · unfold State.wdtTicks
      split
      · exact ⟨s.usb, s.wdt.cnt + 1, false, by rw [Intc.raiseUsbf_false]; rfl, id⟩
      · exact h0
    · exact h0
  | usbReset =>
    unfold applyMove at h
    simp only at h
    split at h <;> cases h
    exact h0
  | usbSuspend =>
    cases h
    split
    · exact hr _ id
    · exact h0
  | usbResumeStart =>
    cases h
    split
    · exact hr _ id
    · exact h0
  | usbResumeEnd =>
    cases h
    split
    · exact hr _ id
    · exact h0
  | usbAccess k p =>
    cases h
    split
    · unfold State.usbAccess
      split
      · split
        · exact hu _ fun k' => Usb.ok_packetEffect k' k p
        · exact h0
      · simp only
        split
        · exact hu _ fun k' => Usb.ok_packetEffect k' k p
        · refine hr _ fun k' => ?_
          have := Usb.ok_packetEffect k' k p
          exact ⟨this.1, this.2.1, pipe_after_raise k this.2.2⟩
    · exact h0
  | usbBusy k b =>
    cases h
    split
    · exact hu _ fun k' => Usb.ok_setFifo k' (Usb.ok_fifo k' k)
    · exact h0
  | crcError =>
    cases h
    split
    · exact hu _ id
    · exact h0
  | fifo0Error =>
    cases h
    split
    · exact hu _ id
    · exact h0
  | siesBus i n e =>
    cases h
    split
    · exact hu _ id
    · exact h0

/-- Which moves are resets, and of which kind. -/
theorem applyMove_resets {m : EnvMove} {s : State} {k : ResetKind} (h : applyMove m s = .resets k) :
    (m = .powerOn ∧ k = .por) ∨
      ((m = .resLow ∨ (m = .lowVoltage ∧ s.config.lvrEnable = true)) ∧ k = s.kindNow .resRun .resHalt) ∨
      (m = .usbReset ∧ s.usb.usbSelected = true ∧ k = s.kindNow .usbRun .usbHalt) := by
  cases m <;> unfold applyMove at h <;> simp only at h
  case powerOn => cases h; exact Or.inl ⟨rfl, rfl⟩
  case resLow => cases h; exact Or.inr (Or.inl ⟨Or.inl rfl, rfl⟩)
  case lowVoltage =>
    split at h <;> cases h
    exact Or.inr (Or.inl ⟨Or.inr ⟨rfl, by assumption⟩, rfl⟩)
  case usbReset =>
    split at h <;> cases h
    exact Or.inr (Or.inr ⟨rfl, by assumption, rfl⟩)
  all_goals cases h

/-- Step 1 goes on exactly when the listed moves do and SUSPEND2 does not reset. -/
theorem environmentMoves_execute {s t : State} :
    environmentMoves s = .execute t ↔ listedMoves s = .execute t ∧ t.suspend2Resets = false := by
  unfold environmentMoves
  cases h : listedMoves s with
  | ends u => simp
  | execute u =>
    cases hr : u.suspend2Resets <;> simp only [hr, Boundary.execute.injEq, Bool.false_eq_true, if_false, if_true]
    · exact ⟨fun e => ⟨e, e ▸ hr⟩, fun e => e.1⟩
    · exact ⟨fun e => (by cases e), fun ⟨e, k⟩ => by subst e; rw [hr] at k; cases k⟩

/-- Step 1 ends the step where the listed moves do, or by the reset that SUSPEND2 brings. -/
theorem environmentMoves_ends {s t : State} (h : environmentMoves s = .ends t) :
    listedMoves s = .ends t ∨
      ∃ u, listedMoves s = .execute u ∧ u.suspend2Resets = true ∧
        t = applyReset (u.kindNow .resRun .resHalt) u := by
  unfold environmentMoves at h
  split at h
  · cases h
    exact Or.inl (by assumption)
  · split at h <;> cases h
    exact Or.inr ⟨_, by assumption, by assumption, rfl⟩

/-! Resets. -/

theorem resetPorts_ok {k : ResetKind} {p : Ports} (h : p.ok) : (resetPorts k p).ok := by
  unfold resetPorts
  split
  · exact h
  · exact ⟨show portBMask &&& ~~~portBMask = 0x00#8 by decide, show portBMask &&& ~~~portBMask = 0x00#8 by decide⟩

theorem resetFifo_length {k : ResetKind} {len : Byte} {f : Nat → Byte} {q : Fifo} (h : q.bytes.length ≤ 8) :
    (resetFifo k len f q).bytes.length ≤ 8 := by
  cases k
  case por =>
    simp only [resetFifo, List.length_map, List.length_range]
    have := Nat.mod_lt len.toNat (show 0 < 9 by decide)
    omega
  case usbRun => exact Nat.zero_le _
  case usbHalt => exact Nat.zero_le _
  all_goals exact h

theorem resetUsb_ok {k : ResetKind} {s : State} (h : s.usb.ok) : (resetUsb k s).ok := by
  refine ⟨resetFifo_length h.1, resetFifo_length h.2.1, ?_⟩
  cases k
  case wdtRun => exact h.2.2
  case wdtHalt => exact h.2.2
  all_goals exact BitVec.zero_and

/-- A reset keeps the invariant. -/
theorem State.DataInv.applyReset {s : State} (h : s.DataInv) (k : ResetKind) : (applyReset k s).DataInv := by
  have hr : (resetRam k s).wf = true ∧ (resetRam k s).within 0x20 0x80 = true := by
    unfold resetRam
    split
    · exact ⟨h.1, h.2⟩
    · exact ⟨filledRam_wf _, filledRam_within _⟩
    · split
      · exact ⟨h.1, h.2⟩
      · exact ⟨filledRam_wf _, filledRam_within _⟩
  have hp := resetPorts_ok (k := k) h.portsOk
  have hu := resetUsb_ok (k := k) h.usbOk
  exact ⟨hr.1, hr.2, h.3, h.4, Nat.zero_le _, hu.1, hu.2.1, hp.1, hp.2, hu.2.2,
    ⟨Nat.zero_le _, Nat.zero_le _, Nat.zero_le _⟩⟩

/-- The parts of a step that are an operation each keep the invariant. -/
theorem State.DataInv.samplePads {s : State} (h : s.DataInv) (p : Pads) : (samplePads p s).DataInv := by
  obtain ⟨a, b, e, t, r, hs⟩ := samplePads_state p s
  rw [hs]
  have h1 : ({ s with env := { s.env with pads := p } } : State).DataInv :=
    h.congr rfl rfl rfl rfl rfl rfl rfl
  exact (((h1.setPorts (p := { s.ports with seenA := a, seenB := b }) h.portsOk).setHalt _).setTimer t).setIntc _

theorem State.DataInv.applyMove {s t : State} {m : EnvMove} (h : s.DataInv) (hm : applyMove m s = .goesOn t) :
    t.DataInv := by
  obtain ⟨u, c, r, rfl, hu⟩ := applyMove_goesOn hm
  exact ((h.setUsb (hu h.usbOk)).setWdt _).setIntc _

theorem State.DataInv.countInstruction {s t : State} (h : t.DataInv) : (countInstruction s t).DataInv := by
  obtain ⟨c, r, w, g, he, -, -, hg, -⟩ := countInstruction_state s t
  rw [he]
  exact ((((h.settleAges).setTimer _).setIntc _).setWdt _).setGap (hg _ h.gapLength)

theorem State.DataInv.enterInterrupt {s : State} (h : s.DataInv) (src : IrqSource) : (enterInterrupt src s).DataInv :=
  ((((h.push _).setPc _).setIntc _).settleAges).addCycles _

end Sys2Proof.Machine
end

