-- ==== Sys2Proof/Laws/Exec.lean ====
section
/-! SUPPORT. Everything that an instruction can do to the state, said once: `Effect s t` lists the shapes of a next
state, and `exec_effect` says that `exec` has no other. -/

namespace Sys2Proof.Machine

/-! The meaning of each instruction, as an equation. -/

theorem exec_addAM (m : DataAddr) (s : State) :
    exec (.addAM m) s =
      accForm m s fun t v => add8 t.flags t.acc v false := rfl

theorem exec_addmAM (m : DataAddr) (s : State) :
    exec (.addmAM m) s =
      modifyFlagForm m s fun t v => add8 t.flags t.acc v false := rfl

theorem exec_addAx (x : Byte) (s : State) :
    exec (.addAx x) s =
      immForm x s fun t v => add8 t.flags t.acc v false := rfl

theorem exec_adcAM (m : DataAddr) (s : State) :
    exec (.adcAM m) s =
      accForm m s fun t v => add8 t.flags t.acc v t.flags.c := rfl

theorem exec_adcmAM (m : DataAddr) (s : State) :
    exec (.adcmAM m) s =
      modifyFlagForm m s fun t v => add8 t.flags t.acc v t.flags.c := rfl

theorem exec_subAx (x : Byte) (s : State) :
    exec (.subAx x) s =
      immForm x s fun t v => sub8 t.flags t.acc v := rfl

theorem exec_subAM (m : DataAddr) (s : State) :
    exec (.subAM m) s =
      accForm m s fun t v => sub8 t.flags t.acc v := rfl

theorem exec_submAM (m : DataAddr) (s : State) :
    exec (.submAM m) s =
      modifyFlagForm m s fun t v => sub8 t.flags t.acc v := rfl

theorem exec_sbcAM (m : DataAddr) (s : State) :
    exec (.sbcAM m) s =
      accForm m s fun t v => sbc8 t.flags t.acc v := rfl

theorem exec_sbcmAM (m : DataAddr) (s : State) :
    exec (.sbcmAM m) s =
      modifyFlagForm m s fun t v => sbc8 t.flags t.acc v := rfl

theorem exec_daaM (m : DataAddr) (s : State) :
    exec (.daaM m) s =
      modifyFlagForm m s fun t _ => decimalAdjust t.flags t.acc := rfl

theorem exec_andAM (m : DataAddr) (s : State) :
    exec (.andAM m) s =
      accForm m s fun t v => zeroOnly t.flags (t.acc &&& v) := rfl

theorem exec_andmAM (m : DataAddr) (s : State) :
    exec (.andmAM m) s =
      modifyFlagForm m s fun t v => zeroOnly t.flags (t.acc &&& v) := rfl

theorem exec_andAx (x : Byte) (s : State) :
    exec (.andAx x) s =
      immForm x s fun t v => zeroOnly t.flags (t.acc &&& v) := rfl

theorem exec_orAM (m : DataAddr) (s : State) :
    exec (.orAM m) s =
      accForm m s fun t v => zeroOnly t.flags (t.acc ||| v) := rfl

theorem exec_ormAM (m : DataAddr) (s : State) :
    exec (.ormAM m) s =
      modifyFlagForm m s fun t v => zeroOnly t.flags (t.acc ||| v) := rfl

theorem exec_orAx (x : Byte) (s : State) :
    exec (.orAx x) s =
      immForm x s fun t v => zeroOnly t.flags (t.acc ||| v) := rfl

theorem exec_xorAM (m : DataAddr) (s : State) :
    exec (.xorAM m) s =
      accForm m s fun t v => zeroOnly t.flags (t.acc ^^^ v) := rfl

theorem exec_xormAM (m : DataAddr) (s : State) :
    exec (.xormAM m) s =
      modifyFlagForm m s fun t v => zeroOnly t.flags (t.acc ^^^ v) := rfl

theorem exec_xorAx (x : Byte) (s : State) :
    exec (.xorAx x) s =
      immForm x s fun t v => zeroOnly t.flags (t.acc ^^^ v) := rfl

theorem exec_cplM (m : DataAddr) (s : State) :
    exec (.cplM m) s =
      modifyFlagForm m s fun t v => zeroOnly t.flags (~~~v) := rfl

theorem exec_cplaM (m : DataAddr) (s : State) :
    exec (.cplaM m) s =
      accForm m s fun t v => zeroOnly t.flags (~~~v) := rfl

theorem exec_incaM (m : DataAddr) (s : State) :
    exec (.incaM m) s =
      accForm m s fun t v => zeroOnly t.flags (v + 1#8) := rfl

theorem exec_incM (m : DataAddr) (s : State) :
    exec (.incM m) s =
      modifyFlagForm m s fun t v => zeroOnly t.flags (v + 1#8) := rfl

theorem exec_decaM (m : DataAddr) (s : State) :
    exec (.decaM m) s =
      accForm m s fun t v => zeroOnly t.flags (v - 1#8) := rfl

theorem exec_decM (m : DataAddr) (s : State) :
    exec (.decM m) s =
      modifyFlagForm m s fun t v => zeroOnly t.flags (v - 1#8) := rfl

theorem exec_rraM (m : DataAddr) (s : State) :
    exec (.rraM m) s =
      accForm m s fun t v => (rotateRight v, t.flags) := rfl

theorem exec_rrM (m : DataAddr) (s : State) :
    exec (.rrM m) s =
      modifyForm m s rotateRight := rfl

theorem exec_rlaM (m : DataAddr) (s : State) :
    exec (.rlaM m) s =
      accForm m s fun t v => (rotateLeft v, t.flags) := rfl

theorem exec_rlM (m : DataAddr) (s : State) :
    exec (.rlM m) s =
      modifyForm m s rotateLeft := rfl

theorem exec_rrcaM (m : DataAddr) (s : State) :
    exec (.rrcaM m) s =
      accForm m s fun t v => rotateRightCarry t.flags v := rfl

theorem exec_rrcM (m : DataAddr) (s : State) :
    exec (.rrcM m) s =
      modifyFlagForm m s fun t v => rotateRightCarry t.flags v := rfl

theorem exec_rlcaM (m : DataAddr) (s : State) :
    exec (.rlcaM m) s =
      accForm m s fun t v => rotateLeftCarry t.flags v := rfl

theorem exec_rlcM (m : DataAddr) (s : State) :
    exec (.rlcM m) s =
      modifyFlagForm m s fun t v => rotateLeftCarry t.flags v := rfl

theorem exec_movAM (m : DataAddr) (s : State) :
    exec (.movAM m) s =
      accForm m s fun t v => (v, t.flags) := rfl

theorem exec_movMA (m : DataAddr) (s : State) :
    exec (.movMA m) s =
      storeForm m s s.acc := rfl

theorem exec_movAx (x : Byte) (s : State) :
    exec (.movAx x) s =
      immForm x s fun t v => (v, t.flags) := rfl

theorem exec_clrBit (m : DataAddr) (i : BitVec 3) (s : State) :
    exec (.clrBit m i) s =
      modifyForm m s fun v => v &&& ~~~bitMask i := rfl

theorem exec_setBit (m : DataAddr) (i : BitVec 3) (s : State) :
    exec (.setBit m i) s =
      modifyForm m s fun v => v ||| bitMask i := rfl

theorem exec_jmp (addr : ProgAddr) (s : State) :
    exec (.jmp addr) s =
      .next ((s.setPc addr).addCycles 2) := rfl

theorem exec_szM (m : DataAddr) (s : State) :
    exec (.szM m) s =
      testSkipForm m s fun v => v == 0x00#8 := rfl

theorem exec_szaM (m : DataAddr) (s : State) :
    exec (.szaM m) s =
      accSkipForm m s fun v => v := rfl

theorem exec_szBit (m : DataAddr) (i : BitVec 3) (s : State) :
    exec (.szBit m i) s =
      testSkipForm m s fun v => !v.getLsbD i.toNat := rfl

theorem exec_snzBit (m : DataAddr) (i : BitVec 3) (s : State) :
    exec (.snzBit m i) s =
      testSkipForm m s fun v => v.getLsbD i.toNat := rfl

theorem exec_sizM (m : DataAddr) (s : State) :
    exec (.sizM m) s =
      modifySkipForm m s fun v => v + 1#8 := rfl

theorem exec_sdzM (m : DataAddr) (s : State) :
    exec (.sdzM m) s =
      modifySkipForm m s fun v => v - 1#8 := rfl

theorem exec_sizaM (m : DataAddr) (s : State) :
    exec (.sizaM m) s =
      accSkipForm m s fun v => v + 1#8 := rfl

theorem exec_sdzaM (m : DataAddr) (s : State) :
    exec (.sdzaM m) s =
      accSkipForm m s fun v => v - 1#8 := rfl

theorem exec_call (addr : ProgAddr) (s : State) :
    exec (.call addr) s =
      .next (((s.push s.pc).setPc addr).addCycles 2) := rfl

theorem exec_ret (s : State) :
    exec .ret s =
      returnWith s fun t => t := rfl

theorem exec_retAx (x : Byte) (s : State) :
    exec (.retAx x) s =
      returnWith s fun t => t.setAcc x := rfl

theorem exec_reti (s : State) :
    exec .reti s =
      returnFromInterrupt s := rfl

theorem exec_tabrdcM (m : DataAddr) (s : State) :
    exec (.tabrdcM m) s =
      tableRead (tabrdcAddr s) m s := rfl

theorem exec_tabrdlM (m : DataAddr) (s : State) :
    exec (.tabrdlM m) s =
      tableRead (tabrdlAddr s) m s := rfl

theorem exec_nop (s : State) :
    exec .nop s =
      .next (s.addCycles 1) := rfl

theorem exec_clrM (m : DataAddr) (s : State) :
    exec (.clrM m) s =
      storeForm m s 0x00#8 := rfl

theorem exec_setM (m : DataAddr) (s : State) :
    exec (.setM m) s =
      storeForm m s 0xFF#8 := rfl

theorem exec_clrWdt (s : State) :
    exec .clrWdt s =
      .next ((s.preclearWdt .got1 .got2).addCycles 1) := rfl

theorem exec_clrWdt1 (s : State) :
    exec .clrWdt1 s =
      .next ((s.preclearWdt .got1 .got2).addCycles 1) := rfl

theorem exec_clrWdt2 (s : State) :
    exec .clrWdt2 s =
      .next ((s.preclearWdt .got2 .got1).addCycles 1) := rfl

theorem exec_swapM (m : DataAddr) (s : State) :
    exec (.swapM m) s =
      modifyForm m s swapNibbles := rfl

theorem exec_swapaM (m : DataAddr) (s : State) :
    exec (.swapaM m) s =
      accForm m s fun t v => (swapNibbles v, t.flags) := rfl

/-- The shapes of the state after an instruction. -/
inductive Effect (s : State) : State → Prop where
  /-- NOP. -/
  | nothing : Effect s (s.addCycles 1)
  /-- The forms `OP A,x`. -/
  | imm (r : Byte × Flags) : Effect s (s.toAcc r)
  /-- The forms `OP A,[m]`. -/
  | acc (m : DataAddr) (r : Byte × Flags) : Effect s ((memRead (ea m s) s).2.toAcc r)
  /-- The read-modify-write forms, the counting skips among them. -/
  | modify (m : DataAddr) (v : Byte) (f : Flags) (c : Bool) (h : (ea m s).accepts v = true) :
      Effect s (storeLoc (ea m s) v ((((memRead (ea m s) s).2.setFlags f).addCycles 1).skipIf c))
  /-- The pure writes. -/
  | store (m : DataAddr) (v : Byte) (h : (ea m s).accepts v = true) :
      Effect s (storeLoc (ea m s) v (s.addCycles 1))
  /-- The table reads. -/
  | table (m : DataAddr) (v : Byte) (x : BitVec 7) (h : (ea m s).accepts v = true) :
      Effect s (storeLoc (ea m s) v ({ s with tblh := x }.addCycles 2))
  /-- The skips that store nothing. -/
  | skip (m : DataAddr) (a : Byte) (c : Bool) :
      Effect s ((((memRead (ea m s) s).2.setAcc a).addCycles 1).skipIf c)
  /-- JMP. -/
  | jump (a : ProgAddr) : Effect s ((s.setPc a).addCycles 2)
  /-- CALL. -/
  | call (a : ProgAddr) : Effect s (((s.push s.pc).setPc a).addCycles 2)
  /-- The returns: RET (`x` and `e` as they were), RET A,x and RETI. -/
  | ret (a : ProgAddr) (rest : List ProgAddr) (x : Byte) (e : Bool) (h : s.stk = a :: rest) :
      Effect s (((((s.setStk rest).setPc a).setAcc x).setIntc { s.intc with emi := e }).addCycles 2)
  /-- The CLR WDT instructions: only the mark, or all that is cleared. -/
  | preclear (p : Preclear) : Effect s ((s.setWdt { s.wdt with pre := p }).addCycles 1)
  | clearWdt : Effect s (s.wdtClearFlags.addCycles 1)
  /-- HALT. -/
  | halt : Effect s
      (((s.wdtOnHalt.setFlags { s.flags with pdf := true, timeout := false }).setHalt
        { halted := true, usbf := s.intc.usbf, tf := s.intc.tf, edge := false }).addCycles 1)

theorem preclearWdt_effect (s : State) (mine other : Preclear) : Effect s ((s.preclearWdt mine other).addCycles 1) := by
  unfold State.preclearWdt
  split
  · exact .clearWdt
  · split
    · exact .clearWdt
    · exact .preclear mine

theorem accForm_effect {m : DataAddr} {s t : State} {f : State → Byte → Byte × Flags} (h : accForm m s f = .next t) :
    Effect s t := by
  obtain ⟨-, rfl⟩ := accForm_next.1 h
  exact .acc m _

theorem immForm_effect {x : Byte} {s t : State} {f : State → Byte → Byte × Flags} (h : immForm x s f = .next t) :
    Effect s t := by
  cases h
  exact .imm _

theorem modifyFlagForm_effect {m : DataAddr} {s t : State} {f : State → Byte → Byte × Flags}
    (h : modifyFlagForm m s f = .next t) : Effect s t := by
  obtain ⟨-, -, ha, rfl⟩ := modifyFlagForm_next.1 h
  exact .modify m _ _ false ha

theorem setFlags_self (s : State) : s.setFlags s.flags = s := rfl

theorem modifyForm_effect {m : DataAddr} {s t : State} {f : Byte → Byte} (h : modifyForm m s f = .next t) :
    Effect s t := by
  obtain ⟨-, ha, rfl⟩ := modifyForm_next.1 h
  exact .modify m _ (memRead (ea m s) s).2.flags false ha

theorem modifySkipForm_effect {m : DataAddr} {s t : State} {f : Byte → Byte} (h : modifySkipForm m s f = .next t) :
    Effect s t := by
  obtain ⟨-, -, ha, rfl⟩ := modifySkipForm_next.1 h
  exact .modify m _ (memRead (ea m s) s).2.flags _ ha

theorem storeForm_effect {m : DataAddr} {s t : State} {v : Byte} (h : storeForm m s v = .next t) : Effect s t := by
  obtain ⟨-, ha, rfl⟩ := storeForm_next.1 h
  exact .store m _ ha

theorem tableRead_effect {a : ProgAddr} {m : DataAddr} {s t : State} (h : tableRead a m s = .next t) : Effect s t := by
  obtain ⟨-, ha, rfl⟩ := tableRead_next.1 h
  exact .table m _ _ ha

theorem testSkipForm_effect {m : DataAddr} {s t : State} {f : Byte → Bool} (h : testSkipForm m s f = .next t) :
    Effect s t := by
  obtain ⟨-, rfl⟩ := testSkipForm_next.1 h
  exact .skip m (memRead (ea m s) s).2.acc _

theorem accSkipForm_effect {m : DataAddr} {s t : State} {f : Byte → Byte} (h : accSkipForm m s f = .next t) :
    Effect s t := by
  obtain ⟨-, rfl⟩ := accSkipForm_next.1 h
  exact .skip m _ _

/-- An instruction has one of these effects. -/
theorem exec_effect {i : Instr} {s t : State} (h : exec i s = .next t) : Effect s t := by
  cases i
  case nop => cases h; exact .nothing
  case clrWdt => cases h; exact preclearWdt_effect s _ _
  case clrWdt1 => cases h; exact preclearWdt_effect s _ _
  case clrWdt2 => cases h; exact preclearWdt_effect s _ _
  case halt => cases h; exact .halt
  case ret =>
    obtain ⟨a, rest, hs, rfl⟩ := returnWith_next.1 h
    exact .ret a rest s.acc s.intc.emi hs
  case retAx x =>
    obtain ⟨a, rest, hs, rfl⟩ := returnWith_next.1 h
    exact .ret a rest x s.intc.emi hs
  case reti =>
    obtain ⟨a, rest, hs, rfl⟩ := returnWith_next.1 h
    exact .ret a rest s.acc true hs
  case call a => cases h; exact .call a
  case jmp a => cases h; exact .jump a
  case addAM _ => rw [exec_addAM] at h; exact accForm_effect h
  case addmAM _ => rw [exec_addmAM] at h; exact modifyFlagForm_effect h
  case addAx _ => rw [exec_addAx] at h; exact immForm_effect h
  case adcAM _ => rw [exec_adcAM] at h; exact accForm_effect h
  case adcmAM _ => rw [exec_adcmAM] at h; exact modifyFlagForm_effect h
  case subAx _ => rw [exec_subAx] at h; exact immForm_effect h
  case subAM _ => rw [exec_subAM] at h; exact accForm_effect h
  case submAM _ => rw [exec_submAM] at h; exact modifyFlagForm_effect h
  case sbcAM _ => rw [exec_sbcAM] at h; exact accForm_effect h
  case sbcmAM _ => rw [exec_sbcmAM] at h; exact modifyFlagForm_effect h
  case daaM _ => rw [exec_daaM] at h; exact modifyFlagForm_effect h
  case andAM _ => rw [exec_andAM] at h; exact accForm_effect h
  case andmAM _ => rw [exec_andmAM] at h; exact modifyFlagForm_effect h
  case andAx _ => rw [exec_andAx] at h; exact immForm_effect h
  case orAM _ => rw [exec_orAM] at h; exact accForm_effect h
  case ormAM _ => rw [exec_ormAM] at h; exact modifyFlagForm_effect h
  case orAx _ => rw [exec_orAx] at h; exact immForm_effect h
  case xorAM _ => rw [exec_xorAM] at h; exact accForm_effect h
  case xormAM _ => rw [exec_xormAM] at h; exact modifyFlagForm_effect h
  case xorAx _ => rw [exec_xorAx] at h; exact immForm_effect h
  case cplM _ => rw [exec_cplM] at h; exact modifyFlagForm_effect h
  case cplaM _ => rw [exec_cplaM] at h; exact accForm_effect h
  case incaM _ => rw [exec_incaM] at h; exact accForm_effect h
  case incM _ => rw [exec_incM] at h; exact modifyFlagForm_effect h
  case decaM _ => rw [exec_decaM] at h; exact accForm_effect h
  case decM _ => rw [exec_decM] at h; exact modifyFlagForm_effect h
  case rraM _ => rw [exec_rraM] at h; exact accForm_effect h
  case rrM _ => rw [exec_rrM] at h; exact modifyForm_effect h
  case rlaM _ => rw [exec_rlaM] at h; exact accForm_effect h
  case rlM _ => rw [exec_rlM] at h; exact modifyForm_effect h
  case rrcaM _ => rw [exec_rrcaM] at h; exact accForm_effect h
  case rrcM _ => rw [exec_rrcM] at h; exact modifyFlagForm_effect h
  case rlcaM _ => rw [exec_rlcaM] at h; exact accForm_effect h
  case rlcM _ => rw [exec_rlcM] at h; exact modifyFlagForm_effect h
  case movAM _ => rw [exec_movAM] at h; exact accForm_effect h
  case movMA _ => rw [exec_movMA] at h; exact storeForm_effect h
  case movAx _ => rw [exec_movAx] at h; exact immForm_effect h
  case clrBit _ _ => rw [exec_clrBit] at h; exact modifyForm_effect h
  case setBit _ _ => rw [exec_setBit] at h; exact modifyForm_effect h
  case szM _ => rw [exec_szM] at h; exact testSkipForm_effect h
  case szaM _ => rw [exec_szaM] at h; exact accSkipForm_effect h
  case szBit _ _ => rw [exec_szBit] at h; exact testSkipForm_effect h
  case snzBit _ _ => rw [exec_snzBit] at h; exact testSkipForm_effect h
  case sizM _ => rw [exec_sizM] at h; exact modifySkipForm_effect h
  case sdzM _ => rw [exec_sdzM] at h; exact modifySkipForm_effect h
  case sizaM _ => rw [exec_sizaM] at h; exact accSkipForm_effect h
  case sdzaM _ => rw [exec_sdzaM] at h; exact accSkipForm_effect h
  case tabrdcM _ => rw [exec_tabrdcM] at h; exact tableRead_effect h
  case tabrdlM _ => rw [exec_tabrdlM] at h; exact tableRead_effect h
  case clrM _ => rw [exec_clrM] at h; exact storeForm_effect h
  case setM _ => rw [exec_setM] at h; exact storeForm_effect h
  case swapM _ => rw [exec_swapM] at h; exact modifyForm_effect h
  case swapaM _ => rw [exec_swapaM] at h; exact accForm_effect h

end Sys2Proof.Machine
end

