-- ==== Sys2Proof/Laws/PerInstr.lean ====
section
/-! SUPPORT. The row of spec/opcode_table.json of each instruction, read off the table, and that the encoder's word lies
in that row: the fixed bits of the row are those of the word, whatever the operands are. -/

namespace Sys2Proof.Laws.TableRow

/-- The "mask" and "match" of the instruction's row in spec/opcode_table.json. -/
def row : Instr → CodeWord × CodeWord
  | .nop => (0x3FFF#14, 0x0000#14)
  | .clrWdt => (0x3FFF#14, 0x0001#14)
  | .clrWdt1 => (0x3FFF#14, 0x0001#14)
  | .halt => (0x3FFF#14, 0x0002#14)
  | .ret => (0x3FFF#14, 0x0003#14)
  | .reti => (0x3FFF#14, 0x0004#14)
  | .clrWdt2 => (0x3FFF#14, 0x0005#14)
  | .movMA _ => (0x3F80#14, 0x0080#14)
  | .cplaM _ => (0x3F80#14, 0x0100#14)
  | .cplM _ => (0x3F80#14, 0x0180#14)
  | .subAM _ => (0x3F80#14, 0x0200#14)
  | .submAM _ => (0x3F80#14, 0x0280#14)
  | .addAM _ => (0x3F80#14, 0x0300#14)
  | .addmAM _ => (0x3F80#14, 0x0380#14)
  | .xorAM _ => (0x3F80#14, 0x0400#14)
  | .xormAM _ => (0x3F80#14, 0x0480#14)
  | .orAM _ => (0x3F80#14, 0x0500#14)
  | .ormAM _ => (0x3F80#14, 0x0580#14)
  | .andAM _ => (0x3F80#14, 0x0600#14)
  | .andmAM _ => (0x3F80#14, 0x0680#14)
  | .movAM _ => (0x3F80#14, 0x0700#14)
  | .szaM _ => (0x3F80#14, 0x1000#14)
  | .szM _ => (0x3F80#14, 0x1080#14)
  | .swapaM _ => (0x3F80#14, 0x1100#14)
  | .swapM _ => (0x3F80#14, 0x1180#14)
  | .sbcAM _ => (0x3F80#14, 0x1200#14)
  | .sbcmAM _ => (0x3F80#14, 0x1280#14)
  | .adcAM _ => (0x3F80#14, 0x1300#14)
  | .adcmAM _ => (0x3F80#14, 0x1380#14)
  | .incaM _ => (0x3F80#14, 0x1400#14)
  | .incM _ => (0x3F80#14, 0x1480#14)
  | .decaM _ => (0x3F80#14, 0x1500#14)
  | .decM _ => (0x3F80#14, 0x1580#14)
  | .sizaM _ => (0x3F80#14, 0x1600#14)
  | .sizM _ => (0x3F80#14, 0x1680#14)
  | .sdzaM _ => (0x3F80#14, 0x1700#14)
  | .sdzM _ => (0x3F80#14, 0x1780#14)
  | .rlaM _ => (0x3F80#14, 0x1800#14)
  | .rlM _ => (0x3F80#14, 0x1880#14)
  | .rraM _ => (0x3F80#14, 0x1900#14)
  | .rrM _ => (0x3F80#14, 0x1980#14)
  | .rlcaM _ => (0x3F80#14, 0x1A00#14)
  | .rlcM _ => (0x3F80#14, 0x1A80#14)
  | .rrcaM _ => (0x3F80#14, 0x1B00#14)
  | .rrcM _ => (0x3F80#14, 0x1B80#14)
  | .tabrdcM _ => (0x3F80#14, 0x1D00#14)
  | .tabrdlM _ => (0x3F80#14, 0x1D80#14)
  | .daaM _ => (0x3F80#14, 0x1E80#14)
  | .clrM _ => (0x3F80#14, 0x1F00#14)
  | .setM _ => (0x3F80#14, 0x1F80#14)
  | .retAx _ => (0x3F00#14, 0x0900#14)
  | .subAx _ => (0x3F00#14, 0x0A00#14)
  | .addAx _ => (0x3F00#14, 0x0B00#14)
  | .xorAx _ => (0x3F00#14, 0x0C00#14)
  | .orAx _ => (0x3F00#14, 0x0D00#14)
  | .andAx _ => (0x3F00#14, 0x0E00#14)
  | .movAx _ => (0x3F00#14, 0x0F00#14)
  | .call _ => (0x3800#14, 0x2000#14)
  | .jmp _ => (0x3800#14, 0x2800#14)
  | .setBit _ _ => (0x3C00#14, 0x3000#14)
  | .clrBit _ _ => (0x3C00#14, 0x3400#14)
  | .snzBit _ _ => (0x3C00#14, 0x3800#14)
  | .szBit _ _ => (0x3C00#14, 0x3C00#14)

/-- The word of `i` lies in the row of `i`. -/
def Statement (i : Instr) : Prop := encode i &&& (row i).1 = (row i).2

/-- A word whose low bits are an operand: the mask keeps the bits above it. -/
theorem fixed_bits {n k : Nat} {b f c : BitVec n} (v : BitVec k) (h : b &&& f = c) :
    (b ++ v) &&& (f ++ 0#k) = c ++ 0#k := by
  rw [BitVec.and_append, h, BitVec.and_zero]

theorem nop : Statement .nop := rfl
theorem clrWdt : Statement .clrWdt := rfl
theorem clrWdt1 : Statement .clrWdt1 := rfl
theorem halt : Statement .halt := rfl
theorem ret : Statement .ret := rfl
theorem reti : Statement .reti := rfl
theorem clrWdt2 : Statement .clrWdt2 := rfl
theorem movMA (m : DataAddr) : Statement (.movMA m) := fixed_bits m (b := 0x01#7) (f := 0x7F#7) rfl
theorem cplaM (m : DataAddr) : Statement (.cplaM m) := fixed_bits m (b := 0x02#7) (f := 0x7F#7) rfl
theorem cplM (m : DataAddr) : Statement (.cplM m) := fixed_bits m (b := 0x03#7) (f := 0x7F#7) rfl
theorem subAM (m : DataAddr) : Statement (.subAM m) := fixed_bits m (b := 0x04#7) (f := 0x7F#7) rfl
theorem submAM (m : DataAddr) : Statement (.submAM m) := fixed_bits m (b := 0x05#7) (f := 0x7F#7) rfl
theorem addAM (m : DataAddr) : Statement (.addAM m) := fixed_bits m (b := 0x06#7) (f := 0x7F#7) rfl
theorem addmAM (m : DataAddr) : Statement (.addmAM m) := fixed_bits m (b := 0x07#7) (f := 0x7F#7) rfl
theorem xorAM (m : DataAddr) : Statement (.xorAM m) := fixed_bits m (b := 0x08#7) (f := 0x7F#7) rfl
theorem xormAM (m : DataAddr) : Statement (.xormAM m) := fixed_bits m (b := 0x09#7) (f := 0x7F#7) rfl
theorem orAM (m : DataAddr) : Statement (.orAM m) := fixed_bits m (b := 0x0A#7) (f := 0x7F#7) rfl
theorem ormAM (m : DataAddr) : Statement (.ormAM m) := fixed_bits m (b := 0x0B#7) (f := 0x7F#7) rfl
theorem andAM (m : DataAddr) : Statement (.andAM m) := fixed_bits m (b := 0x0C#7) (f := 0x7F#7) rfl
theorem andmAM (m : DataAddr) : Statement (.andmAM m) := fixed_bits m (b := 0x0D#7) (f := 0x7F#7) rfl
theorem movAM (m : DataAddr) : Statement (.movAM m) := fixed_bits m (b := 0x0E#7) (f := 0x7F#7) rfl
theorem szaM (m : DataAddr) : Statement (.szaM m) := fixed_bits m (b := 0x20#7) (f := 0x7F#7) rfl
theorem szM (m : DataAddr) : Statement (.szM m) := fixed_bits m (b := 0x21#7) (f := 0x7F#7) rfl
theorem swapaM (m : DataAddr) : Statement (.swapaM m) := fixed_bits m (b := 0x22#7) (f := 0x7F#7) rfl
theorem swapM (m : DataAddr) : Statement (.swapM m) := fixed_bits m (b := 0x23#7) (f := 0x7F#7) rfl
theorem sbcAM (m : DataAddr) : Statement (.sbcAM m) := fixed_bits m (b := 0x24#7) (f := 0x7F#7) rfl
theorem sbcmAM (m : DataAddr) : Statement (.sbcmAM m) := fixed_bits m (b := 0x25#7) (f := 0x7F#7) rfl
theorem adcAM (m : DataAddr) : Statement (.adcAM m) := fixed_bits m (b := 0x26#7) (f := 0x7F#7) rfl
theorem adcmAM (m : DataAddr) : Statement (.adcmAM m) := fixed_bits m (b := 0x27#7) (f := 0x7F#7) rfl
theorem incaM (m : DataAddr) : Statement (.incaM m) := fixed_bits m (b := 0x28#7) (f := 0x7F#7) rfl
theorem incM (m : DataAddr) : Statement (.incM m) := fixed_bits m (b := 0x29#7) (f := 0x7F#7) rfl
theorem decaM (m : DataAddr) : Statement (.decaM m) := fixed_bits m (b := 0x2A#7) (f := 0x7F#7) rfl
theorem decM (m : DataAddr) : Statement (.decM m) := fixed_bits m (b := 0x2B#7) (f := 0x7F#7) rfl
theorem sizaM (m : DataAddr) : Statement (.sizaM m) := fixed_bits m (b := 0x2C#7) (f := 0x7F#7) rfl
theorem sizM (m : DataAddr) : Statement (.sizM m) := fixed_bits m (b := 0x2D#7) (f := 0x7F#7) rfl
theorem sdzaM (m : DataAddr) : Statement (.sdzaM m) := fixed_bits m (b := 0x2E#7) (f := 0x7F#7) rfl
theorem sdzM (m : DataAddr) : Statement (.sdzM m) := fixed_bits m (b := 0x2F#7) (f := 0x7F#7) rfl
theorem rlaM (m : DataAddr) : Statement (.rlaM m) := fixed_bits m (b := 0x30#7) (f := 0x7F#7) rfl
theorem rlM (m : DataAddr) : Statement (.rlM m) := fixed_bits m (b := 0x31#7) (f := 0x7F#7) rfl
theorem rraM (m : DataAddr) : Statement (.rraM m) := fixed_bits m (b := 0x32#7) (f := 0x7F#7) rfl
theorem rrM (m : DataAddr) : Statement (.rrM m) := fixed_bits m (b := 0x33#7) (f := 0x7F#7) rfl
theorem rlcaM (m : DataAddr) : Statement (.rlcaM m) := fixed_bits m (b := 0x34#7) (f := 0x7F#7) rfl
theorem rlcM (m : DataAddr) : Statement (.rlcM m) := fixed_bits m (b := 0x35#7) (f := 0x7F#7) rfl
theorem rrcaM (m : DataAddr) : Statement (.rrcaM m) := fixed_bits m (b := 0x36#7) (f := 0x7F#7) rfl
theorem rrcM (m : DataAddr) : Statement (.rrcM m) := fixed_bits m (b := 0x37#7) (f := 0x7F#7) rfl
theorem tabrdcM (m : DataAddr) : Statement (.tabrdcM m) := fixed_bits m (b := 0x3A#7) (f := 0x7F#7) rfl
theorem tabrdlM (m : DataAddr) : Statement (.tabrdlM m) := fixed_bits m (b := 0x3B#7) (f := 0x7F#7) rfl
theorem daaM (m : DataAddr) : Statement (.daaM m) := fixed_bits m (b := 0x3D#7) (f := 0x7F#7) rfl
theorem clrM (m : DataAddr) : Statement (.clrM m) := fixed_bits m (b := 0x3E#7) (f := 0x7F#7) rfl
theorem setM (m : DataAddr) : Statement (.setM m) := fixed_bits m (b := 0x3F#7) (f := 0x7F#7) rfl
theorem retAx (x : Byte) : Statement (.retAx x) := fixed_bits x (b := 0x09#6) (f := 0x3F#6) rfl
theorem subAx (x : Byte) : Statement (.subAx x) := fixed_bits x (b := 0x0A#6) (f := 0x3F#6) rfl
theorem addAx (x : Byte) : Statement (.addAx x) := fixed_bits x (b := 0x0B#6) (f := 0x3F#6) rfl
theorem xorAx (x : Byte) : Statement (.xorAx x) := fixed_bits x (b := 0x0C#6) (f := 0x3F#6) rfl
theorem orAx (x : Byte) : Statement (.orAx x) := fixed_bits x (b := 0x0D#6) (f := 0x3F#6) rfl
theorem andAx (x : Byte) : Statement (.andAx x) := fixed_bits x (b := 0x0E#6) (f := 0x3F#6) rfl
theorem movAx (x : Byte) : Statement (.movAx x) := fixed_bits x (b := 0x0F#6) (f := 0x3F#6) rfl
theorem call (a : ProgAddr) : Statement (.call a) := fixed_bits a (b := 0x4#3) (f := 0x7#3) rfl
theorem jmp (a : ProgAddr) : Statement (.jmp a) := fixed_bits a (b := 0x5#3) (f := 0x7#3) rfl
theorem setBit (m : DataAddr) (i : BitVec 3) : Statement (.setBit m i) :=
  fixed_bits m (fixed_bits i (b := 0xC#4) (f := 0xF#4) rfl)
theorem clrBit (m : DataAddr) (i : BitVec 3) : Statement (.clrBit m i) :=
  fixed_bits m (fixed_bits i (b := 0xD#4) (f := 0xF#4) rfl)
theorem snzBit (m : DataAddr) (i : BitVec 3) : Statement (.snzBit m i) :=
  fixed_bits m (fixed_bits i (b := 0xE#4) (f := 0xF#4) rfl)
theorem szBit (m : DataAddr) (i : BitVec 3) : Statement (.szBit m i) :=
  fixed_bits m (fixed_bits i (b := 0xF#4) (f := 0xF#4) rfl)

end Sys2Proof.Laws.TableRow
end

