-- ==== Sys2Proof/Tests/Slice0.lean ====
section
/-! SUPPORT. Tests of the model, each about one step or one word, with expected results from spec/, and a witness for
the hypotheses of every statement in Certificates/Slice0/Obligations.lean. -/

namespace Sys2Proof.Tests

open Sys2Proof.Machine

/-! ## WellFormed -/

/-- With one CLR WDT instruction chosen the word 0001H is CLR WDT, so CLR WDT1 is refused (30_encoding.md R149). -/
theorem test_clrWdt1_ill_formed : wellFormed .one .clrWdt1 = false := by decide

/-- With two chosen it is CLR WDT1, so CLR WDT is refused (30_encoding.md R149). -/
theorem test_clrWdt_ill_formed : wellFormed .two .clrWdt = false := by decide

/-! ## Decoding: words written out from the encoding column of spec/opcode_table.json (30_encoding.md R149 to R153) -/

theorem test_decode_F0_1 :
    [0b00000000000000, 0b00000000000001, 0b00000000000010, 0b00000000000011, 0b00000000000100,
      0b00000000000101].map (decodeTableWord 14) =
      [some .nop, some .clrWdt, some .halt, some .ret, some .reti, some .clrWdt2] := by decide

theorem test_decode_FM_1 :
    [0b00000011000000, 0b00000100000101, 0b00000111111111, 0b00001000000000, 0b00001010101010, 0b00001101010101,
      0b00001110000001, 0b00010000100000, 0b00010011000000, 0b00010100000101,
      0b00010111111111].map (decodeTableWord 14) =
      [some (.movMA 0x40#7), some (.cplaM 0x05#7), some (.cplM 0x7F#7), some (.subAM 0x00#7),
        some (.submAM 0x2A#7), some (.addAM 0x55#7), some (.addmAM 0x01#7), some (.xorAM 0x20#7),
        some (.xormAM 0x40#7), some (.orAM 0x05#7), some (.ormAM 0x7F#7)] := by decide

theorem test_decode_FM_2 :
    [0b00011000000000, 0b00011010101010, 0b00011101010101, 0b01000000000001, 0b01000010100000, 0b01000101000000,
      0b01000110000101, 0b01001001111111, 0b01001010000000, 0b01001100101010,
      0b01001111010101].map (decodeTableWord 14) =
      [some (.andAM 0x00#7), some (.andmAM 0x2A#7), some (.movAM 0x55#7), some (.szaM 0x01#7), some (.szM 0x20#7),
        some (.swapaM 0x40#7), some (.swapM 0x05#7), some (.sbcAM 0x7F#7), some (.sbcmAM 0x00#7),
        some (.adcAM 0x2A#7), some (.adcmAM 0x55#7)] := by decide

theorem test_decode_FM_3 :
    [0b01010000000001, 0b01010010100000, 0b01010101000000, 0b01010110000101, 0b01011001111111, 0b01011010000000,
      0b01011100101010, 0b01011111010101, 0b01100000000001, 0b01100010100000,
      0b01100101000000].map (decodeTableWord 14) =
      [some (.incaM 0x01#7), some (.incM 0x20#7), some (.decaM 0x40#7), some (.decM 0x05#7), some (.sizaM 0x7F#7),
        some (.sizM 0x00#7), some (.sdzaM 0x2A#7), some (.sdzM 0x55#7), some (.rlaM 0x01#7), some (.rlM 0x20#7),
        some (.rraM 0x40#7)] := by decide

theorem test_decode_FM_4 :
    [0b01100110000101, 0b01101001111111, 0b01101010000000, 0b01101100101010, 0b01101111010101, 0b01110100000001,
      0b01110110100000, 0b01111011000000, 0b01111100000101, 0b01111111111111].map (decodeTableWord 14) =
      [some (.rrM 0x05#7), some (.rlcaM 0x7F#7), some (.rlcM 0x00#7), some (.rrcaM 0x2A#7), some (.rrcM 0x55#7),
        some (.tabrdcM 0x01#7), some (.tabrdlM 0x20#7), some (.daaM 0x40#7), some (.clrM 0x05#7),
        some (.setM 0x7F#7)] := by decide

theorem test_decode_FI_1 :
    [0b00100101011010, 0b00101011111111, 0b00101100000001, 0b00110010000000, 0b00110101011010, 0b00111011111111,
      0b00111100000001].map (decodeTableWord 14) =
      [some (.retAx 0x5A#8), some (.subAx 0xFF#8), some (.addAx 0x01#8), some (.xorAx 0x80#8), some (.orAx 0x5A#8),
        some (.andAx 0xFF#8), some (.movAx 0x01#8)] := by decide

theorem test_decode_FA_1 :
    [0b10000100100011, 0b10111111111110].map (decodeTableWord 14) =
      [some (.call 0x123#11), some (.jmp 0x7FE#11)] := by decide

theorem test_decode_FB_1 :
    [0b11001110000000, 0b11010010101010, 0b11101001010101, 0b11110100000001].map (decodeTableWord 14) =
      [some (.setBit 0x00#7 7#3), some (.clrBit 0x2A#7 1#3), some (.snzBit 0x55#7 4#3),
        some (.szBit 0x01#7 2#3)] := by decide

/-- CLR WDT1 shares the word of CLR WDT and is read where the option says so (30_encoding.md R149). -/
theorem test_decode_clrWdt1 : (decode .two 0b00000000000001#14).toOption = some .clrWdt1 := by decide

/-! ## One step of each instruction: the examples of the instruction rules, with the operand byte at 40H -/

/-- The step of a machine whose next word is `w` gives a next state of which `ok` holds. -/
def gives (w : Nat) (s : State) (ok : State → Bool) : Bool :=
  match step (s.withFetchWord 14 w) with
  | .next t => ok t
  | .fault _ => false
  | .refused _ => false

/-- The step of a machine whose next word is `w` refuses with `r`. -/
def stops (w : Nat) (s : State) (r : Refusal) : Bool :=
  match step (s.withFetchWord 14 w) with
  | .next _ => false
  | .fault _ => false
  | .refused q => q == r

/-- The reset machine with ACC, the byte at 40H and C given. -/
def start (acc cell : Byte) (c : Bool) : State :=
  { State.reset with acc := acc, ram := Memory.write [] 0x40 cell, flags := { State.reset.flags with c := c } }

/-- The byte at 40H. -/
def cell (s : State) : Byte := s.ram.read 0x40

/-- C, AC, Z, OV. -/
def alu (s : State) : Bool × Bool × Bool × Bool := (s.flags.c, s.flags.ac, s.flags.z, s.flags.ov)

theorem test_addAM :
    gives 0b00001101000000 (start 0x3A 0xC6 false)
      (fun t => t.acc == 0x00 && alu t == (true, true, true, false)) = true := by
  decide

theorem test_addmAM :
    gives 0b00001111000000 (start 0x01 0x7F false)
      (fun t => cell t == 0x80 && t.acc == 0x01 && alu t == (false, true, false, true)) = true := by
  decide

theorem test_addAx :
    gives 0b00101100000001 (start 0xFF 0x00 false)
      (fun t => t.acc == 0x00 && alu t == (true, true, true, false)) = true := by
  decide

theorem test_adcAM :
    gives 0b01001101000000 (start 0x7F 0x00 true)
      (fun t => t.acc == 0x80 && alu t == (false, true, false, true)) = true := by
  decide

theorem test_adcmAM :
    gives 0b01001111000000 (start 0xF0 0x0F true)
      (fun t => cell t == 0x00 && alu t == (true, true, true, false)) = true := by
  decide

theorem test_subAx :
    gives 0b00101001010000 (start 0x30 0x00 false)
      (fun t => t.acc == 0xE0 && alu t == (false, true, false, false)) = true := by
  decide

theorem test_subAM :
    gives 0b00001001000000 (start 0x80 0x01 false)
      (fun t => t.acc == 0x7F && alu t == (true, false, false, true)) = true := by
  decide

theorem test_submAM :
    gives 0b00001011000000 (start 0x50 0x30 false)
      (fun t => cell t == 0x20 && t.acc == 0x50 && alu t == (true, true, false, false)) = true := by
  decide

theorem test_sbcAM :
    gives 0b01001001000000 (start 0x50 0x30 false)
      (fun t => t.acc == 0x1F && alu t == (true, false, false, false)) = true := by
  decide

theorem test_sbcmAM :
    gives 0b01001011000000 (start 0x10 0x0F false)
      (fun t => cell t == 0x00 && alu t == (true, false, true, false)) = true := by
  decide

theorem test_daaM :
    gives 0b01111011000000 (start 0x7D 0x00 false)
      (fun t => cell t == 0x83 && alu t == (false, false, false, false)) = true := by
  decide

theorem test_andAM :
    gives 0b00011001000000 (start 0xF0 0x3C true)
      (fun t => t.acc == 0x30 && alu t == (true, false, false, false)) = true := by
  decide

theorem test_orAM :
    gives 0b00010101000000 (start 0x00 0x00 false)
      (fun t => t.acc == 0x00 && alu t == (false, false, true, false)) = true := by
  decide

theorem test_xorAM :
    gives 0b00010001000000 (start 0xAA 0xFF false)
      (fun t => t.acc == 0x55 && alu t == (false, false, false, false)) = true := by
  decide

theorem test_andmAM :
    gives 0b00011011000000 (start 0x0F 0x5A false)
      (fun t => cell t == 0x0A && t.acc == 0x0F && alu t == (false, false, false, false)) = true := by
  decide

theorem test_ormAM :
    gives 0b00010111000000 (start 0x80 0x01 false)
      (fun t => cell t == 0x81 && alu t == (false, false, false, false)) = true := by
  decide

theorem test_xormAM :
    gives 0b00010011000000 (start 0xFF 0xFF false)
      (fun t => cell t == 0x00 && alu t == (false, false, true, false)) = true := by
  decide

theorem test_andAx :
    gives 0b00111000001111 (start 0x5A 0x00 false)
      (fun t => t.acc == 0x0A && alu t == (false, false, false, false)) = true := by
  decide

theorem test_orAx :
    gives 0b00110100000001 (start 0x10 0x00 false)
      (fun t => t.acc == 0x11 && alu t == (false, false, false, false)) = true := by
  decide

theorem test_xorAx :
    gives 0b00110000111100 (start 0x3C 0x00 false)
      (fun t => t.acc == 0x00 && alu t == (false, false, true, false)) = true := by
  decide

theorem test_cplM :
    gives 0b00000111000000 (start 0x00 0xFF false)
      (fun t => cell t == 0x00 && alu t == (false, false, true, false)) = true := by
  decide

theorem test_cplaM :
    gives 0b00000101000000 (start 0x00 0x0F false)
      (fun t => t.acc == 0xF0 && cell t == 0x0F && alu t == (false, false, false, false)) = true := by
  decide

theorem test_incaM :
    gives 0b01010001000000 (start 0x00 0x0F false)
      (fun t => t.acc == 0x10 && cell t == 0x0F && alu t == (false, false, false, false)) = true := by
  decide

theorem test_incM :
    gives 0b01010011000000 (start 0x00 0x7F false)
      (fun t => cell t == 0x80 && alu t == (false, false, false, false)) = true := by
  decide

theorem test_decaM :
    gives 0b01010101000000 (start 0x07 0x01 false)
      (fun t => t.acc == 0x00 && cell t == 0x01 && alu t == (false, false, true, false)) = true := by
  decide

theorem test_decM :
    gives 0b01010111000000 (start 0x00 0x10 false)
      (fun t => cell t == 0x0F && alu t == (false, false, false, false)) = true := by
  decide

theorem test_rraM :
    gives 0b01100101000000 (start 0x00 0x01 false)
      (fun t => t.acc == 0x80 && cell t == 0x01 && alu t == (false, false, false, false)) = true := by
  decide

theorem test_rrM :
    gives 0b01100111000000 (start 0x00 0x81 false)
      (fun t => cell t == 0xC0 && alu t == (false, false, false, false)) = true := by
  decide

theorem test_rrcaM :
    gives 0b01101101000000 (start 0x09 0x01 false)
      (fun t => t.acc == 0x00 && cell t == 0x01 && alu t == (true, false, false, false)) = true := by
  decide

theorem test_rrcM :
    gives 0b01101111000000 (start 0x00 0x02 true)
      (fun t => cell t == 0x81 && alu t == (false, false, false, false)) = true := by
  decide

theorem test_rlaM :
    gives 0b01100001000000 (start 0x00 0x80 false)
      (fun t => t.acc == 0x01 && cell t == 0x80 && alu t == (false, false, false, false)) = true := by
  decide

theorem test_rlM :
    gives 0b01100011000000 (start 0x00 0xC3 false)
      (fun t => cell t == 0x87 && alu t == (false, false, false, false)) = true := by
  decide

theorem test_rlcaM :
    gives 0b01101001000000 (start 0x00 0x80 true)
      (fun t => t.acc == 0x01 && alu t == (true, false, false, false)) = true := by
  decide

theorem test_rlcM :
    gives 0b01101011000000 (start 0x00 0x55 false)
      (fun t => cell t == 0xAA && alu t == (false, false, false, false)) = true := by
  decide

theorem test_movAM :
    gives 0b00011101000000 (start 0x00 0x5A false)
      (fun t => t.acc == 0x5A && alu t == (false, false, false, false)) = true := by
  decide

theorem test_movMA :
    gives 0b00000011000000 (start 0x12 0x00 false)
      (fun t => cell t == 0x12 && t.acc == 0x12) = true := by
  decide

theorem test_movAx :
    gives 0b00111111111111 (start 0x00 0x00 false)
      (fun t => t.acc == 0xFF && alu t == (false, false, false, false)) = true := by
  decide

theorem test_clrBit : gives 0b11010111000000 (start 0x00 0xFF false) (fun t => cell t == 0xF7) = true := by
  decide

theorem test_setBit : gives 0b11001111000000 (start 0x00 0x00 false) (fun t => cell t == 0x80) = true := by
  decide

theorem test_jmp :
    gives 0b10100100100011 { start 0x00 0x00 false with pc := 0x005 }
      (fun t => t.pc == 0x123 && t.stk == [] && t.cyc == 2) = true := by
  decide

theorem test_szM :
    gives 0b01000011000000 { start 0x00 0x00 false with pc := 0x010 }
      (fun t => t.pc == 0x012 && t.cyc == 2) = true := by
  decide

theorem test_szM_not_taken :
    gives 0b01000011000000 { start 0x00 0x01 false with pc := 0x010 }
      (fun t => t.pc == 0x011 && t.cyc == 1) = true := by
  decide

theorem test_szaM :
    gives 0b01000001000000 { start 0x00 0x7E false with pc := 0x010 }
      (fun t => t.pc == 0x011 && t.acc == 0x7E) = true := by
  decide

theorem test_szBit :
    gives 0b11110100001010 { start 0 0 false with pc := 0x010, flags := { State.reset.flags with z := true } }
      (fun t => t.pc == 0x011) = true := by
  decide

theorem test_snzBit :
    gives 0b11101111000000 { start 0x00 0x80 false with pc := 0x010 }
      (fun t => t.pc == 0x012) = true := by
  decide

theorem test_sizM :
    gives 0b01011011000000 { start 0x00 0xFF false with pc := 0x010 }
      (fun t => cell t == 0x00 && t.pc == 0x012 && !t.flags.z) = true := by
  decide

theorem test_sdzM :
    gives 0b01011111000000 { start 0x00 0x01 false with pc := 0x010 }
      (fun t => cell t == 0x00 && t.pc == 0x012) = true := by
  decide

theorem test_sizaM :
    gives 0b01011001000000 { start 0x00 0x0F false with pc := 0x010 }
      (fun t => t.acc == 0x10 && cell t == 0x0F && t.pc == 0x011) = true := by
  decide

theorem test_sdzaM :
    gives 0b01011101000000 { start 0x05 0x01 false with pc := 0x010 }
      (fun t => t.acc == 0x00 && cell t == 0x01 && t.pc == 0x012) = true := by
  decide

theorem test_call :
    gives 0b10000100000000 { start 0x00 0x00 false with pc := 0x020 }
      (fun t => t.stk == [0x021] && t.pc == 0x100) = true := by
  decide

theorem test_call_full :
    gives 0b10000100000000 { start 0 0 false with pc := 0x020, stk := [4, 3, 2, 1] }
      (fun t => t.stk == [0x021, 4, 3, 2]) = true := by
  decide

theorem test_ret :
    gives 0b00000000000011 { start 0 0 false with stk := [0x021] }
      (fun t => t.pc == 0x021 && t.stk == [] && !t.intc.emi) = true := by
  decide

theorem test_retAx :
    gives 0b00100101011010 { start 0 0 false with stk := [0x021] }
      (fun t => t.pc == 0x021 && t.acc == 0x5A) = true := by
  decide

theorem test_reti :
    gives 0b00000000000100 { start 0 0 false with stk := [0x045] }
      (fun t => t.pc == 0x045 && t.intc.emi) = true := by
  decide

theorem test_tabrdcM :
    gives 0b01110101000000 { start 0 0 false with pc := 0x312, tblp := 0x40, rom := placeWord [] 0x340 0x2A5C }
      (fun t => cell t == 0x5C && t.tblh == 0x2A && t.cyc == 2) = true := by
  decide

theorem test_tabrdlM :
    gives 0b01110111000000 { start 0 0 false with tblp := 0x03, rom := placeWord [] 0x703 0x3FFF }
      (fun t => cell t == 0xFF && t.tblh == 0x3F) = true := by
  decide

theorem test_nop :
    gives 0b00000000000000 { start 0x00 0x00 false with pc := 0x010 }
      (fun t => t.pc == 0x011 && t.acc == 0 && t.cyc == 1) = true := by
  decide

theorem test_clrM :
    gives 0b01111101000000 (start 0x00 0xA5 false)
      (fun t => cell t == 0x00 && !t.flags.z) = true := by
  decide

theorem test_setM : gives 0b01111111000000 (start 0x00 0x00 false) (fun t => cell t == 0xFF) = true := by
  decide

theorem test_clrWdt :
    gives 0b00000000000001 { start 0 0 false with flags := { State.reset.flags with timeout := true, pdf := true } }
      (fun t => !t.flags.timeout && !t.flags.pdf) = true := by
  decide

theorem test_clrWdt1 :
    gives 0b00000000000001 { start 0 0 false with flags := { State.reset.flags with timeout := true, pdf := true }, config := { clrWdtTimes := .two } }
      (fun t => t.flags.timeout && t.wdt.pre == .got1) = true := by
  decide

theorem test_clrWdt2 :
    gives 0b00000000000101 { start 0 0 false with flags := { State.reset.flags with timeout := true, pdf := true }, config := { clrWdtTimes := .two }, wdt := { ws := 7, cnt := 9, pre := .got1 } }
      (fun t => !t.flags.timeout && !t.flags.pdf && t.wdt == { ws := 7, cnt := 0, pre := .none }) = true := by
  decide

theorem test_swapM : gives 0b01000111000000 (start 0x00 0xA5 false) (fun t => cell t == 0x5A) = true := by
  decide

theorem test_swapaM :
    gives 0b01000101000000 (start 0x00 0x1F false)
      (fun t => t.acc == 0xF1 && cell t == 0x1F) = true := by
  decide

theorem test_halt :
    gives 0b00000000000010 { start 0 0 false with pc := 0x010, flags := { State.reset.flags with timeout := true } }
      (fun t => !t.flags.timeout && t.flags.pdf && t.halt.halted && t.pc == 0x011) = true := by
  decide

/-! ## Stops, and what the operand forms meet -/

/-- Bank 1 selected and MP1 at an unimplemented address (10_state.md R49). -/
def bank1At (a : BitVec 7) : State := { State.reset with bp := true, mp1 := a }

/-- RET with the stack empty (10_state.md R28). -/
theorem test_ret_underflow : stops 0b00000000000011 State.reset .stackUnderflow = true := by decide

/-- INC [0AH] (42_incdec_rotate.md R244). -/
theorem test_inc_status : stops 0b01010010001010 State.reset .statusDestination = true := by decide

/-- SIZ [06H] (44_branch.md R277). -/
theorem test_siz_pcl : stops 0b01011010000110 State.reset .skipToPcl = true := by decide

/-- CLR [09H] writes 00000 to WDTS bits 7 to 3 (10_state.md R38). -/
theorem test_clr_wdts : stops 0b01111100001001 State.reset .wdtsReserved = true := by decide

/-- MOV A,[02H] at bank 1 47H (93_implementation_defined.md K9). -/
theorem test_unimplemented : stops 0b00011100000010 (bank1At 0x47) .bank1Unimplemented = true := by decide

/-- A word of none of the formats (30_encoding.md R154). -/
theorem test_undefined_word : stops 0b00000001111111 State.reset (.undefinedWord 0x007F#14) = true := by decide

/-- The locations that the clauses of Accumulates, Modifies, ModifiesPlainly, Stores, CountsAndSkips, TestsAndSkips and
LoadsAndSkips tell apart, each at an operand that reaches it: the premises of AddAndSubtractToAcc,
AddAndSubtractToMemory, DecimalAdjust, Logic, IncrementAndDecrement, Rotates, Moves, BitAndSwapInMemory,
NopClearSetSwapa, TableReads and Skips. -/
theorem witness_locations :
    ea 0x40#7 State.reset = .ram 0x40#7 ∧ ea 0x20#7 State.reset = .ram 0x20#7 ∧ ea 0x7F#7 State.reset = .ram 0x7F#7 ∧
      ea 0x06#7 State.reset = .pcl ∧ ea 0x09#7 State.reset = .wdts ∧ ea 0x0A#7 State.reset = .status ∧
      ea 0x02#7 (bank1At 0x40) = .unmapped ∧ ea 0x02#7 (bank1At 0x4A) = .unmapped ∧
      ea 0x02#7 (bank1At 0x41) = .pipeCtrl ∧ ea 0x02#7 (bank1At 0x49) = .fifo .ep1 := by decide

/-- The bytes that divide the clauses on WDTS: 87H is taken, 88H and 7FH are not (10_state.md R38). -/
theorem witness_wdts_bytes :
    (0x87#8).extractLsb' 3 5 = 0b10000#5 ∧ (0x80#8).extractLsb' 3 5 = 0b10000#5 ∧
      (0x88#8).extractLsb' 3 5 ≠ 0b10000#5 ∧ (0x7F#8).extractLsb' 3 5 ≠ 0b10000#5 := by decide

/-- Both clauses on WDTS are met by one instruction: INC [09H] from WS = 000 and from WS = 111. -/
theorem witness_inc_wdts :
    gives 0b01010010001001 { State.reset with wdt := { ws := 0, cnt := 0, pre := .none } } (fun t => t.wdt.ws == 1) =
        true ∧
      stops 0b01010010001001 State.reset .wdtsReserved = true := by decide

/-- The tests of the skips hold of some bytes and fail of others. -/
theorem witness_skip_tests :
    (0x00#8).toNat = 0 ∧ (0x01#8).toNat ≠ 0 ∧ (0x80#8).getLsbD 7 = true ∧ (0x7F#8).getLsbD 7 = false := by decide

/-! ## Witnesses: encoding, fetch and the step -/

theorem witness_DecodeOfEncode :
    wellFormed .one (.szBit 0x7F#7 7#3) = true ∧ wellFormed .two .clrWdt1 = true ∧ wellFormed .one .clrWdt = true := by
  decide

theorem witness_EncodeOfDecode :
    decode .one 0x3FFF#14 = .ok (.szBit 0x7F#7 7#3) ∧ decode .two 0x0001#14 = .ok .clrWdt1 :=
  ⟨rfl, rfl⟩

/-- The reset machine whose `ENCODING` gives one word another meaning. -/
def mapped (w : Nat) (i : Option Instr) : State :=
  { State.reset with config := { encoding := [(BitVec.ofNat 14 w, i)] } }

theorem witness_UndefinedWordsRefused :
    (([0x0006, 0x007F, 0x0780, 0x08FF, 0x1C00, 0x1CFF, 0x1E00, 0x1E7F] : List Nat).map (decodeTableWord 14) =
        List.replicate 8 none) ∧
      ((([0x0005, 0x0080, 0x077F, 0x0900, 0x1BFF, 0x1D00, 0x1DFF, 0x1E80] : List Nat).map
        fun w => (decodeTableWord 14 w).isSome) = List.replicate 8 true) ∧
      (∃ t, boundary (State.reset.withFetchWord 14 6) = .execute t ∧ t.config.encoding = [] ∧
        (t.romWord t.pc).toNat = 6) ∧
      (∃ t e, boundary (mapped 0 none) = .execute t ∧ t.config.decode (t.romWord t.pc) = .error e) ∧
      (mapped 6 (some .halt)).config.encoding = (0x0006#14, some .halt) :: [] ∧
      (mapped 0 none).config.encoding = (0x0000#14, none) :: [] :=
  ⟨by decide, by decide, ⟨_, rfl, rfl, by decide⟩, ⟨_, _, rfl, rfl⟩, rfl, rfl⟩

/-- A map that gives the word 0006H to HALT and leaves 0000H undefined: `ENCODING` is what the fetch follows
(30_encoding.md R147, D1). -/
theorem test_other_encoding :
    gives 6 (mapped 6 (some .halt)) (fun t => t.halt.halted) = true ∧
      stops 0 (mapped 0 none) (.undefinedWord 0x0000#14) = true := by decide

theorem witness_StepRunsDecodedInstruction :
    (∃ t u, boundary State.reset = .execute t ∧ t.config.decode (t.romWord t.pc) = .ok .nop ∧
      exec .nop (t.setPc (t.pc + 1#11)) = .next u) ∧
    ∃ t, boundary (State.reset.withFetchWord 14 3) = .execute t ∧
      t.config.decode (t.romWord t.pc) = .ok .ret ∧
      exec .ret (t.setPc (t.pc + 1#11)) = .refused .stackUnderflow :=
  ⟨⟨_, _, rfl, rfl, rfl⟩, _, rfl, rfl, rfl⟩

/-- The reset machine with the options given. -/
def configured (c : Config) : State := { State.reset with config := c }

theorem witness_QuietBoundaryExecutes :
    State.reset.env.inputs = [] ∧ State.reset.ports.seenA = State.reset.padsA ∧
      State.reset.ports.seenB = State.reset.padsB ∧ State.reset.wdtTimedOut = false ∧
      (State.reset.config.lvrEnable = false ∨ State.reset.usb.scc.getLsbD 4 = false) ∧
      (configured { lvrEnable := false }).config.lvrEnable = false ∧
      State.reset.halt.halted = false ∧ State.reset.intc.emi = false := by decide

/-! ## Witnesses: invariants and resets -/

theorem reset_dataInv : State.reset.DataInv := by
  constructor
  case gapLength => exact ⟨by decide, by decide, by decide⟩
  all_goals decide

theorem witness_InvariantKept : State.reset.Inv ∧ ∃ t, step State.reset = .next t :=
  ⟨{ toDataInv := reset_dataInv, haltFlags := by decide, usbAge := by decide, timerAge := by decide
     gapSettled := ⟨by decide, by decide, by decide⟩ }, _, rfl⟩

theorem witness_ProgramMemoryConstant : ∃ t, step State.reset = .next t := ⟨_, rfl⟩

theorem witness_ChipResetColumns :
    ResetKind.usbHalt ≠ .por ∧ ResetKind.usbHalt ≠ .wdtHalt ∧
      (configured { ramAfterReset := .survives }).config.ramAfterReset = .survives ∧
      (configured { bpReset := some true }).config.bpReset = some true ∧
      (configured { tbhpReset := some 7 }).config.tbhpReset = some 7#3 := by decide

/-- The reset machine with the USB block given. -/
def withUsb (u : Usb) : State := { State.reset with usb := u }

/-- The reset machine with the USB interface selected, and USR and SCC bits besides. -/
def selected (usr scc : Byte) : State := withUsb { State.reset.usb with usr := 0x20#8 ||| usr, scc := scc }

theorem witness_UsbRegistersAfterReset :
    (selected 0x00 0x00).usb.usr.getLsbD 4 ≠ (selected 0x00 0x00).usb.usr.getLsbD 5 ∧
      (4 < 8 ∧ 7 < 8 ∧ ResetKind.resHalt = .resHalt ∧ ResetKind.usbHalt = .usbHalt) := by decide

/-- A machine whose watchdog is enabled and has counted `n`, with WS = 000. -/
def counted (n : Nat) : State :=
  { State.reset with config := { wdtEnable := true }, wdt := { ws := 0, cnt := n, pre := .none } }

/-- A halted machine. -/
def asleep (s : State) : State :=
  { s with
    halt := { halted := true, usbf := s.intc.usbf, tf := s.intc.tf, edge := false }
    flags := { s.flags with pdf := true } }

theorem witness_WatchdogTimeOutResets :
    (∃ t, environmentMoves (counted 256) = .execute t ∧ t.config.wdtEnable = true ∧
      256 * 2 ^ t.wdt.ws.toNat ≤ t.wdt.cnt ∧ t.halt.halted = false) ∧
    ∃ t, environmentMoves (asleep (counted 256)) = .execute t ∧ t.config.wdtEnable = true ∧
      256 * 2 ^ t.wdt.ws.toNat ≤ t.wdt.cnt ∧ t.halt.halted = true :=
  ⟨⟨_, rfl, by decide⟩, _, rfl, by decide⟩

/-- A machine whose environment makes the moves given at the next boundary. -/
def told (ms : List EnvMove) (s : State) : State :=
  { s with env := { pads := s.env.pads, inputs := [{ pads := s.env.pads, moves := ms }] } }

/-- With a tick of the watchdog's oscillator before and one after, every move finds its place: the machine selected and
not, LVR enabled and not, running and halted. -/
theorem witness_EnvironmentResets :
    (∀ m : EnvMove, ∀ s ∈ [State.reset, selected 0x00 0x00, asleep State.reset, configured { lvrEnable := false }],
      ∃ p t, (told ([.wdtTick] ++ m :: [.wdtTick]) s).env.inputs =
          { pads := p, moves := [.wdtTick] ++ m :: [.wdtTick] } :: [] ∧
        runMoves [.wdtTick] (samplePads p { told ([.wdtTick] ++ m :: [.wdtTick]) s with
          env := { (told ([.wdtTick] ++ m :: [.wdtTick]) s).env with inputs := [] } }) = .execute t) ∧
      State.reset.config.lvrEnable = true ∧ (configured { lvrEnable := false }).config.lvrEnable = false ∧
      ((selected 0x00 0x00).usb.usr.getLsbD 5 = true ∧ (selected 0x00 0x00).usb.usr.getLsbD 4 = false) ∧
      State.reset.usb.usr.getLsbD 5 = false ∧
      ∃ t, listedMoves (selected 0x00 0x10) = .execute t ∧ t.config.lvrEnable = true ∧
        t.usb.scc.getLsbD 4 = true :=
  ⟨fun _ s _ => ⟨s.env.pads, _, rfl, rfl⟩, by decide, by decide, by decide, by decide, _, rfl, by decide⟩

/-- USB reset while the interface is selected, at the default options: URST_FLAG and USBF are set, and the digits 0 of
USC bits 5 and 4 are there (62_ports_usb_ps2.md R514, 70_reset_and_hazards.md R610). -/
theorem test_usb_reset :
    gives 0 (told [.usbReset] { selected 0x00 0x00 with pc := 0x123 })
      (fun t => t.pc == 0 && t.usb.usc.urstFlag && t.intc.usbf && t.usb.usr == 0x60 &&
        t.usb.readUsc t.env.pads 0xFF &&& 0x3D == 0x04) = true := by decide

/-- SUSPEND2 set with the LVR enabled resets the chip (62_ports_usb_ps2.md R515), and not with it disabled. -/
theorem test_suspend2 :
    gives 0 { selected 0x00 0x10 with pc := 0x123 } (fun t => t.pc == 0 && t.usb.scc == 0x00) = true ∧
      gives 0 { selected 0x00 0x10 with pc := 0x123, config := { lvrEnable := false } }
        (fun t => t.pc == 0x124 && t.usb.scc == 0x10) = true := by decide

/-! ## Witnesses: interrupts, HALT and wake-up -/

/-- A machine with the interrupt bits given and three entries on the stack. -/
def asking (i : Intc) : State := { State.reset with pc := 0x123, stk := [3, 2, 1], intc := i }

theorem witness_InterruptEntered :
    (∃ t, environmentMoves (asking ⟨true, true, true, true, true⟩) = .execute t ∧ t.wdtTimedOut = false ∧
      t.halt.halted = false ∧ t.intc.emi = true ∧ t.stk.length < 4 ∧ t.intc.eui = true ∧ t.intc.usbf = true ∧
      t.config.irqLatency ≤ t.irqAge.usb) ∧
    ∃ t, environmentMoves (asking ⟨true, false, true, true, true⟩) = .execute t ∧ t.wdtTimedOut = false ∧
      t.halt.halted = false ∧ t.intc.emi = true ∧ t.stk.length < 4 ∧ t.intc.eti = true ∧ t.intc.tf = true ∧
      t.config.irqLatency ≤ t.irqAge.timer ∧
      ¬(t.intc.eui = true ∧ t.intc.usbf = true ∧ t.config.irqLatency ≤ t.irqAge.usb) :=
  ⟨⟨_, rfl, by decide⟩, _, rfl, by decide⟩

/-- Both sources acknowledgeable: the USB one is taken and TF stays (60_exceptions.md R408, R412). -/
theorem test_interrupt_priority :
    gives 0 (asking ⟨true, true, true, true, true⟩)
      (fun t => t.pc == 0x004 && t.stk == [0x123, 3, 2, 1] && t.intc == ⟨false, true, true, false, true⟩) = true := by
  decide

/-- The machine with `IRQ_LATENCY` = 1, its request flags not seen yet. -/
def late (s : State) : State := { s with config := { s.config with irqLatency := 1 } }

theorem witness_InterruptHeldOff :
    (∃ t, environmentMoves (asking ⟨false, true, true, true, true⟩) = .execute t ∧ t.wdtTimedOut = false ∧
      t.halt.halted = false ∧ t.intc.emi = false) ∧
    (∃ t, environmentMoves { asking ⟨true, true, true, true, true⟩ with stk := [4, 3, 2, 1] } = .execute t ∧
      t.wdtTimedOut = false ∧ t.halt.halted = false ∧ 4 ≤ t.stk.length) ∧
    (∃ t, environmentMoves (asking ⟨true, false, true, true, false⟩) = .execute t ∧ t.wdtTimedOut = false ∧
      t.halt.halted = false ∧ ¬(t.intc.eui = true ∧ t.intc.usbf = true ∧ t.config.irqLatency ≤ t.irqAge.usb) ∧
      ¬(t.intc.eti = true ∧ t.intc.tf = true ∧ t.config.irqLatency ≤ t.irqAge.timer)) ∧
    ∃ t, environmentMoves (late (asking ⟨true, true, true, true, true⟩)) = .execute t ∧ t.wdtTimedOut = false ∧
      t.halt.halted = false ∧ ¬(t.intc.eui = true ∧ t.intc.usbf = true ∧ t.config.irqLatency ≤ t.irqAge.usb) ∧
      ¬(t.intc.eti = true ∧ t.intc.tf = true ∧ t.config.irqLatency ≤ t.irqAge.timer) :=
  ⟨⟨_, rfl, by decide⟩, ⟨_, rfl, by decide⟩, ⟨_, rfl, by decide⟩, _, rfl, by decide⟩

theorem witness_RetiResumesInterruptedProgram :
    (asking ⟨true, true, true, true, true⟩).stk.length < 4 ∧
      (asking ⟨true, true, true, true, true⟩).intc.emi = true := by decide

theorem witness_HaltedMachineWaits :
    ∃ t, environmentMoves (asleep (asking ⟨true, true, true, true, true⟩)) = .execute t ∧ t.wdtTimedOut = false ∧
      (asleep (asking ⟨true, true, true, true, true⟩)).halt.halted = true ∧ t.halt.edge = false ∧
      (t.intc.usbf = true → (asleep (asking ⟨true, true, true, true, true⟩)).halt.usbf = true) ∧
      (t.intc.tf = true → (asleep (asking ⟨true, true, true, true, true⟩)).halt.tf = true) :=
  ⟨_, rfl, by decide⟩

/-- A halted machine in which PA0 falls at the next boundary, with PA0 selected for wake-up. -/
def woken : State :=
  let s := asleep { asking ⟨false, false, false, false, false⟩ with config := { wakeA := 0x01 } }
  { s with env := { s.env with inputs := [{ pads := { s.env.pads with pa := 0xFE }, moves := [] }] } }

/-- A halted machine whose request flags have risen since HALT, with the enable bits given. -/
def raised (emi eui eti usbf tf : Bool) : State :=
  { asleep (asking ⟨emi, eui, eti, false, false⟩) with intc := ⟨emi, eui, eti, usbf, tf⟩ }

theorem witness_WakeEventResumes :
    (∃ t, environmentMoves woken = .execute t ∧ t.wdtTimedOut = false ∧ t.halt.halted = true ∧ t.halt.edge = true ∧
      t.intc.emi = false) ∧
    (∃ t, environmentMoves (raised true true true true true) = .execute t ∧ t.wdtTimedOut = false ∧
      t.halt.halted = true ∧ t.intc.usbf = true ∧ t.halt.usbf = false ∧ t.intc.emi = true ∧ t.stk.length < 4 ∧
      t.intc.eui = true ∧ t.config.irqLatency ≤ t.irqAge.usb) ∧
    (∃ t, environmentMoves (raised true false true false true) = .execute t ∧ t.wdtTimedOut = false ∧
      t.halt.halted = true ∧ t.intc.tf = true ∧ t.halt.tf = false ∧ t.intc.emi = true ∧ t.stk.length < 4 ∧
      t.intc.eti = true ∧ t.config.irqLatency ≤ t.irqAge.timer ∧ t.intc.usbf = false) ∧
    ∃ t, environmentMoves (late (raised true true true true true)) = .execute t ∧ t.wdtTimedOut = false ∧
      t.halt.halted = true ∧ t.intc.tf = true ∧ t.halt.tf = false ∧
      ¬t.config.irqLatency ≤ t.irqAge.usb ∧ ¬t.config.irqLatency ≤ t.irqAge.timer :=
  ⟨⟨_, rfl, by decide⟩, ⟨_, rfl, by decide⟩, ⟨_, rfl, by decide⟩, _, rfl, by decide⟩

theorem witness_WakeUpEdges :
    State.reset.env.inputs = [] ∧ woken.env.inputs = { pads := { woken.env.pads with pa := 0xFE }, moves := [] } :: [] ∧
      wakeEdge { wakeA := 0x84 } 0x80 0x00 0 0 = true ∧ wakeEdge { wakeA := 0x84 } 0x00 0x80 0 0 = false ∧
      wakeEdge { wakeA := 0x84 } 0x00 0x04 0 0 = true := by decide

/-! ## Witnesses: timer and watchdog -/

/-- A machine with TMRC given as a byte and the counter at `n`. -/
def timed (ctl : Byte) (n : BitVec 16) (run : Bool) : State :=
  { State.reset with timer := { State.reset.timer with ctl := Tmrc.ofByte ctl, cnt := n, pwRun := run } }

theorem witness_TimerOverflowPeriod :
    0 < 65536 - (timed 0x90 0xFFFF false).timer.cnt.toNat ∧ 65535 < 65536 - (timed 0x90 0 false).timer.cnt.toNat := by
  decide

/-- The counter at FFFFH in timer mode: one NOP overflows it (61_timers_wdt.md R459, R461). -/
theorem test_timer_overflow :
    gives 0 (timed 0x90 0xFFFF false) (fun t => t.timer.cnt == 0 && t.intc.tf) = true := by decide

theorem witness_InstructionCyclesCounted :
    ((timed 0x90 5 false).addCycles 2).cyc = (timed 0x90 5 false).cyc + 2 ∧
      ((timed 0x90 0 false).timer.ctl.ton = true ∧ (timed 0x90 0 false).timer.ctl.tm1 = true ∧
        (timed 0x90 0 false).timer.ctl.tm0 = false) ∧
      ((timed 0xD0 0 true).timer.ctl.tm1 = true ∧ (timed 0xD0 0 true).timer.ctl.tm0 = true ∧
        (timed 0xD0 0 true).timer.pwRun = true ∧ (timed 0xD0 0 false).timer.pwRun = false) ∧
      (timed 0x50 0 false).timer.ctl.tm1 = false ∧ (timed 0x80 0 false).timer.ctl.ton = false := by decide

theorem witness_TimerInputEdges :
    (timed 0x40 0 false).timer.ctl.ton = false ∧
      ((timed 0x50 0 false).timer.ctl.ton = true ∧ (timed 0x50 0 false).timer.ctl.tm1 = false ∧
        (timed 0x50 0 false).timer.ctl.tm0 = true ∧ (timed 0x50 0 false).timer.ctl.te = false ∧
        (timed 0x58 0 false).timer.ctl.te = true) ∧
      ((timed 0xD8 0 true).timer.ctl.ton = true ∧ (timed 0xD8 0 true).timer.ctl.tm1 = true ∧
        (timed 0xD8 0 true).timer.ctl.tm0 = true ∧ (timed 0xD8 0 true).halt.halted = false ∧
        (timed 0xD8 0 true).timer.pwRun = true ∧ (timed 0xD8 0 false).timer.pwRun = false) ∧
      ((asleep (timed 0xD8 0 true)).halt.halted = true ∧ (asleep (timed 0xD8 0 true)).timer.ctl.tm0 = true) ∧
      (timed 0x90 0 false).timer.ctl.ton = true ∧ (timed 0x90 0 false).timer.ctl.tm0 = false := by decide

theorem witness_WatchdogCounts :
    (counted 256).config.wdtEnable = true ∧ State.reset.config.wdtEnable = false ∧
      ((counted 0).wdt.ws, 256) ∈ [((0b000#3 : BitVec 3), (256 : Nat))] ∧ (counted 256).wdtTimedOut = true ∧
      (counted 255).wdtTimedOut = false ∧ ((counted 0).addCycles 2).cyc = (counted 0).cyc + 2 := by decide

/-- A machine that takes two CLR WDT instructions, with its mark. -/
def marked (p : Preclear) : State :=
  { State.reset with config := { clrWdtTimes := .two }, wdt := { ws := 7, cnt := 99, pre := p } }

theorem witness_WatchdogClearInstructions :
    State.reset.config.clrWdtTimes = .one ∧ (marked .none).config.clrWdtTimes = .two ∧
      (marked .got2).wdt.pre = .got2 ∧ (marked .none).wdt.pre ≠ .got2 ∧ (marked .got1).wdt.pre = .got1 ∧
      (marked .none).wdt.pre ≠ .got1 := by decide

theorem witness_WatchdogPairAtAnyDistance :
    (marked .none).config.clrWdtTimes = .two ∧ (∀ i ∈ [Instr.nop, .clrM 0x40#7], i.flagEffect ≠ .power) ∧
      (∃ t u v, exec .clrWdt1 (marked .none) = .next t ∧ execAll [.nop, .clrM 0x40#7] t = .next u ∧
        exec .clrWdt2 u = .next v) ∧
      ∃ t u v, exec .clrWdt2 (marked .got2) = .next t ∧ execAll [.nop, .clrM 0x40#7] t = .next u ∧
        exec .clrWdt1 u = .next v :=
  ⟨by decide, by decide, ⟨_, _, _, rfl, rfl, rfl⟩, _, _, _, rfl, rfl, rfl⟩

/-! ## Witnesses: data memory, frames, arithmetic, returns -/

theorem witness_OperandResolution :
    ea 0x00#7 { State.reset with mp0 := 0x02 } = .null ∧ ea 0x02#7 (bank1At 0x1F) = .tbhp ∧
      ea 0x02#7 { bank1At 0x20 with bp := false } = .ram 0x20#7 ∧ ea 0x03#7 State.reset = .mp1 := by decide

theorem witness_RamReadAfterWrite : (start 0 0x5A false).ram.wf = true := by decide

theorem witness_ReadSideEffects :
    (∀ k, Loc.pb ≠ .fifo k) ∧ Loc.pb ≠ .tmrh ∧ (∀ k, Loc.tmrl ≠ .fifo k) ∧ Loc.tmrl ≠ .tmrh ∧ Loc.tmrl ≠ .pb ∧
      Loc.tmrh = .tmrh ∧ Loc.fifo .ep0 = .fifo .ep0 ∧ Endpoint.ep1 ≠ .ep0 :=
  ⟨fun k => by cases k <;> decide, by decide, fun k => by cases k <;> decide, by decide, by decide, rfl, rfl, by decide⟩

theorem witness_frames :
    (start 0x3A 0xC6 false).ram.wf = true ∧ (∃ t, exec (.addmAM 0x40#7) (start 0x3A 0xC6 false) = .next t) ∧
      (Instr.addmAM 0x40#7).dest = some 0x40#7 ∧ (Instr.addAM 0x40#7).dest = none ∧
      (Instr.movAM 0x40#7).writesAcc = true ∧ (Instr.clrBit 0x0A#7 2#3).flagEffect = .none ∧
      ∃ t, exec (.clrBit 0x0A#7 2#3) State.reset = .next t :=
  ⟨by decide, ⟨_, rfl⟩, rfl, rfl, rfl, rfl, _, rfl⟩

/-- C, AC, Z and OV given, TO and PDF clear. -/
def flagsOf (c ac z ov : Bool) : Flags := { c := c, ac := ac, z := z, ov := ov, pdf := false, timeout := false }

theorem witness_DecimalAdditionIsCorrect :
    IsSum (flagsOf false false false false) 0x99#8 0x99#8 false 0x32#8 (flagsOf true true false true) ∧
      (0x99#8).toNat % 16 ≤ 9 ∧ (0x99#8).toNat / 16 ≤ 9 := by
  unfold IsSum
  decide

theorem witness_JumpCallReturn :
    (asking ⟨true, true, true, true, true⟩).stk.length < 4 ∧
      ({ State.reset with stk := [4, 3, 2, 1] } : State).stk = [4, 3, 2, 1] ∧
      (asking ⟨true, true, true, true, true⟩).stk = 3 :: [2, 1] ∧ State.reset.stk = [] := by decide

/-! ## Witnesses: USB and PS2 -/

/-- MISC as written, with FIFO 0 holding the bytes and the mark given. -/
def requested (v : Byte) (bytes : List Byte) (mark : FifoMark) (busy : Bool) : State :=
  withUsb { State.reset.usb with misc := Misc.ofByte v, fifo0 := { bytes := bytes, mark := mark, busy := busy } }

theorem witness_PortAndUscAccess :
    (withUsb { State.reset.usb with usr := 0x10 }).usb.usr.getLsbD 4 ≠
        (withUsb { State.reset.usb with usr := 0x10 }).usb.usr.getLsbD 5 ∧
      (withUsb { State.reset.usb with usr := 0x30 }).usb.usr.getLsbD 4 =
        (withUsb { State.reset.usb with usr := 0x30 }).usb.usr.getLsbD 5 ∧
      State.reset.usb.usr.getLsbD 4 = State.reset.usb.usr.getLsbD 5 := by decide

/-- Each endpoint with its flag set and clear, with MNI set and clear, and each packet. -/
theorem witness_EndpointAccess :
    ((selected 0x02 0x08).usb.usr.getLsbD Endpoint.ep1.bit.toNat = true ∧
      (selected 0x01 0x08).usb.usr.getLsbD Endpoint.ep0.bit.toNat = true ∧
      (∀ bytes, Packet.outZero ≠ .setup bytes)) ∧
      ((selected 0x02 0x08).usb.usr.getLsbD Endpoint.ep0.bit.toNat = false ∧
        (selected 0x02 0x08).usb.sies.getLsbD 7 = false) ∧
      ((withUsb { State.reset.usb with usr := 0x20, sies := 0x80 }).usb.usr.getLsbD Endpoint.ep1.bit.toNat = false ∧
        (withUsb { State.reset.usb with usr := 0x20, sies := 0x80 }).usb.sies.getLsbD 7 = true ∧
        Packet.inTaken ≠ .naked) ∧
      Endpoint.ep0 ≠ .ep1 ∧ (0x20#8).getLsbD Endpoint.ep1.bit.toNat = false :=
  ⟨⟨by decide, by decide, nofun⟩, by decide⟩

/-- A SETUP that comes while EP0IF is still 1 is not missed (62_ports_usb_ps2.md R545). -/
theorem test_setup_not_missed :
    gives 0 (told [.usbAccess .ep0 (.setup [1, 2])] (selected 0x01 0x08))
      (fun t => t.usb.misc.setCmd && t.usb.fifo0.bytes == [1, 2] && !t.intc.usbf) = true := by decide

/-- With SCLKSEL for 6 MHz beside a 12 MHz crystal the SIE does not work (62_ports_usb_ps2.md R520). -/
theorem test_sclksel :
    gives 0 (told [.usbAccess .ep0 (.setup [1, 2])] (selected 0x00 0x48)) (fun t => t.usb.usr == 0x20) = true := by
  decide

/-- The machine with the wait given running before a check of Ready. -/
def waiting (n : Nat) (s : State) : State :=
  { s with gap := { s.gap with request := { left := n, fresh := false } } }

theorem witness_FifoReadAndWrite :
    ((requested 0x01 [7] .fromHost false).usb.openFor .ep0 false = true ∧
      (requested 0x01 [7] .fromHost false).usb.ready = true ∧
      (requested 0x01 [7] .fromHost false).gap.request.left = 0 ∧
      (requested 0x01 [7] .fromHost false).gap.read.left = 0) ∧
    ((requested 0x03 [1, 2, 3, 4, 5, 6, 7] .filling false).usb.openFor .ep0 true = true ∧
      (requested 0x03 [1, 2, 3, 4, 5, 6, 7] .filling false).usb.ready = true ∧
      (requested 0x03 [1, 2, 3, 4, 5, 6, 7] .filling false).gap.write.left = 0) ∧
    (0 < (waiting 1 (requested 0x01 [7] .fromHost false)).gap.request.left ∧
      0 < (waiting 1 (requested 0x03 [] .filling false)).gap.request.left) ∧
    (requested 0x03 [] .fromHost false).usb.openFor .ep0 false = false ∧
    (requested 0x01 [7] .fromHost false).usb.openFor .ep0 true = false ∧
    ((requested 0x01 [] .fromHost false).usb.openFor .ep0 false = true ∧
      (requested 0x01 [] .fromHost false).usb.ready = false) ∧
    (requested 0x03 [1] .handed false).usb.ready = false ∧
    (State.reset.usb.misc.request = false ∧ (0x01#8).getLsbD 0 = true) ∧
    ((waiting 6 State.reset).addCycles 2).cyc = (waiting 6 State.reset).cyc + 2 ∧
    (asleep State.reset).halt.halted = true := by decide

/-- A check of MISC sooner than 2 µs after the request reads a drawn byte (62_ports_usb_ps2.md R546; 95_test_vectors.md,
the MISC program without its six NOPs). -/
theorem test_misc_too_early :
    memRead .misc (storeLoc .misc 0x01 State.reset) =
      (Config.draw 0, (storeLoc .misc 0x01 State.reset).addDraws 1) := rfl

/-- The three ways in which a read of MISC after a write of it is exact, and the two in which it is drawn. -/
theorem witness_RegisterReadAfterWrite :
    ((0x02#8).getLsbD 0 = false ∧ (0x11#8).getLsbD 4 = true ∧
      ((requested 0x01 [7] .fromHost false).usb.misc.request = true ∧
        ¬0 < (requested 0x01 [7] .fromHost false).gap.request.left)) ∧
      ((0x01#8).getLsbD 0 = true ∧ (0x01#8).getLsbD 4 = false ∧ State.reset.usb.misc.request = false) ∧
      (waiting 6 (requested 0x01 [7] .fromHost false)).usb.misc.request = true ∧
      0 < (waiting 6 (requested 0x01 [7] .fromHost false)).gap.request.left := by decide

theorem witness_ReadyBit :
    (requested 0x00 [7] .fromHost false).usb.misc.request = false ∧
      (requested 0x11 [7] .fromHost false).usb.misc.sel1 = true ∧
      (requested 0x01 [7] .fromHost false).usb.openFor .ep0 false = true ∧
      (requested 0x03 [] .fromHost false).usb.openFor .ep0 true = true ∧
      (requested 0x03 [] .fromHost false).usb.ready = true ∧
      (requested 0x03 [1, 2, 3, 4, 5, 6, 7, 8] .filling false).usb.ready = false ∧
      (requested 0x01 [7] .fromHost true).usb.ready = false ∧ State.reset.gap.request.left = 0 ∧
      0 < (waiting 6 (requested 0x01 [7] .fromHost false)).gap.request.left := by decide

/-- The zero-sized packet: with 03H standing, the write of 01H hands over an empty packet (62_ports_usb_ps2.md R544). -/
theorem test_zero_packet :
    (storeLoc .misc 0x01 (requested 0x03 [] .fromHost false)).usb.fifo0 = ⟨[], .handed, false⟩ := by decide

theorem witness_CommitHandsOver :
    ((0x01#8).getLsbD 0 = true ∧ (0x01#8).getLsbD 2 = false ∧ (0x01#8).getLsbD 1 = false ∧
      (requested 0x03 [1, 2] .filling false).usb.openFor .ep0 true = true ∧
      ((requested 0x03 [1, 2] .filling false).usb.fifo .ep0).mark = .filling ∧
      (requested 0x03 [] .fromHost false).usb.openFor .ep0 true = true ∧
      ((requested 0x03 [] .fromHost false).usb.fifo .ep0).mark ≠ .filling) ∧
    ((0x03#8).getLsbD 1 = true ∧ (requested 0x01 [7] .fromHost false).usb.openFor .ep0 false = true) ∧
    ((0x0D#8).getLsbD 0 = true ∧ (0x0D#8).getLsbD 2 = true ∧ (0x0D#8).getLsbD 4 = false ∧
      Endpoint.ep1 = (if (0x0D#8).getLsbD 3 = true then .ep1 else .ep0) ∧
      Endpoint.ep0 ≠ (if (0x0D#8).getLsbD 3 = true then .ep1 else .ep0) ∧
      State.reset.usb.misc.request = false ∧
      (requested 0x01 [7] .fromHost false).usb.misc.tx = (0x0D#8).getLsbD 1) ∧
    (0x04#8).getLsbD 0 = false := by decide

theorem witness_DeviceAddressUpdate :
    State.reset.usb.sies.getLsbD 0 = false ∧
      (withUsb { State.reset.usb with sies := 0x01, awr := 0x54 }).usb.sies.getLsbD 0 = true ∧
      (withUsb { State.reset.usb with sies := 0x01, awr := 0x54 }).usb.usr.getLsbD Endpoint.ep0.bit.toNat = false := by
  decide

theorem witness_UsbBusEvents :
    (((selected 0x00 0x08).usb.usr.getLsbD 5 = true ∧ (selected 0x00 0x08).usb.usr.getLsbD 4 = false) ∧
      (selected 0x00 0x08).usb.scc.getLsbD 3 = true ∧
      ((selected 0x00 0x08).usb.scc.getLsbD 6 = true ↔ (selected 0x00 0x08).config.fSys = .mhz6) ∧
      (selected 0x00 0x08).halt.halted = false) ∧
    State.reset.usb.usr.getLsbD 5 = false ∧ (selected 0x10 0x08).usb.usr.getLsbD 4 = true ∧
    (selected 0x00 0x00).usb.scc.getLsbD 3 = false ∧ (asleep (selected 0x00 0x08)).halt.halted = true ∧
    ¬((selected 0x00 0x48).usb.scc.getLsbD 6 = true ↔ (selected 0x00 0x48).config.fSys = .mhz6) := by decide

end Sys2Proof.Tests
end

section
/-! The adder of 00_scope.md R14 and the one's complement subtraction of 40_arithmetic.md R200, read as statements about
integers. `add8_isSum` opens the adder once; a difference is the sum of `a` and the one's complement of `b`
(`IsSum.isDifference`), so SUB and SBC follow from that one argument, with carry in 1 and with carry in C. -/

namespace Sys2Proof.Machine

/-- `add8` is the adder in integers (00_scope.md R14). -/
theorem add8_isSum (f : Flags) (a b : Byte) (cin : Bool) :
    IsSum f a b cin (add8 f a b cin).1 (add8 f a b cin).2 := by
  refine ⟨?result, ?carry, ?halfCarry, ?overflow, ?zero, rfl, rfl⟩
  case result => simp [add8]
  case carry => simp [add8]
  case halfCarry => simp [add8]
  case overflow => simp [add8]
  case zero => simp [add8, ← BitVec.toNat_inj]

/-- A byte in two's complement: 256 less than its value from 128 up. -/
theorem byte_toInt (v : Byte) : v.toInt = if v.toNat < 128 then (v.toNat : Int) else v.toNat - 256 := by
  rw [BitVec.toInt_eq_toNat_cond]
  split <;> split <;> omega

/-- The one's complement of `v` is `-1 - v` in two's complement, which is why adding it with carry in 1 subtracts. -/
theorem byte_toInt_not (v : Byte) : (~~~v).toInt = -1 - v.toInt := by
  have hv := v.isLt
  have hnot : (~~~v).toNat = 255 - v.toNat := by simp
  rw [byte_toInt, byte_toInt, hnot]
  split <;> split <;> omega

/-- OV as the adder computes it, the carry out of bit 6 against the carry out of bit 7, says that the sum in two's
complement leaves the range of a byte. -/
theorem carries_differ_iff_signed_overflow (a b : Byte) (cin : Bool) :
    ¬(128 ≤ a.toNat % 128 + b.toNat % 128 + cin.toNat ↔ 256 ≤ a.toNat + b.toNat + cin.toNat) ↔
      a.toInt + b.toInt + (cin.toNat : Int) < -128 ∨ 127 < a.toInt + b.toInt + (cin.toNat : Int) := by
  have ha := a.isLt
  have hb := b.isLt
  have hc := cin.toNat_le
  rw [byte_toInt, byte_toInt]
  split <;> split <;> omega

/-- The byte and the flags `q` are the integer difference `a - b - borrow` (40_arithmetic.md R200). -/
def IsDifference (f : Flags) (a b : Byte) (borrow : Int) (q : Byte × Flags) : Prop :=
  (q.1.toNat : Int) = ((a.toNat : Int) - b.toNat - borrow) % 256 ∧
    (q.2.c = true ↔ (0 : Int) ≤ (a.toNat : Int) - b.toNat - borrow) ∧
    (q.2.ac = true ↔ (0 : Int) ≤ (a.toNat % 16 : Int) - b.toNat % 16 - borrow) ∧
    (q.2.ov = true ↔ a.toInt - b.toInt - borrow < -128 ∨ 127 < a.toInt - b.toInt - borrow) ∧
    (q.2.z = true ↔ q.1.toNat = 0) ∧ q.2.pdf = f.pdf ∧ q.2.timeout = f.timeout

section
variable {f g : Flags} {a b r : Byte} {cin : Bool}

theorem IsSum.ov_iff (h : IsSum f a b cin r g) :
    g.ov = true ↔ a.toInt + b.toInt + (cin.toNat : Int) < -128 ∨ 127 < a.toInt + b.toInt + (cin.toNat : Int) := by
  obtain ⟨-, -, -, hov, -⟩ := h
  exact hov.trans (carries_differ_iff_signed_overflow a b cin)

/-- Adding the one's complement subtracts; the borrow taken in is the carry in inverted (40_arithmetic.md R200). -/
theorem IsSum.isDifference (h : IsSum f a (~~~b) cin r g) : IsDifference f a b (1 - cin.toNat) (r, g) := by
  have hov := h.ov_iff
  obtain ⟨hr, hc, hac, -, hz, hpdf, hto⟩ := h
  have hb := b.isLt
  have hnot : (~~~b).toNat = 255 - b.toNat := by simp
  rw [hnot] at hr hc hac
  refine ⟨?result, hc.trans ?noBorrow, hac.trans ?noHalfBorrow, hov.trans ?overflow, hz, hpdf, hto⟩
  case result => simp only; omega
  case noBorrow => omega
  case noHalfBorrow => omega
  case overflow => rw [byte_toInt_not]; omega

end

theorem sub8_isDifference (f : Flags) (a b : Byte) : IsDifference f a b 0 (sub8 f a b) :=
  (add8_isSum f a (~~~b) true).isDifference

/-- SBC takes in the borrow C = 0 (40_arithmetic.md R200). -/
theorem sbc8_isDifference (f : Flags) (a b : Byte) :
    IsDifference f a b (if f.c = true then 0 else 1) (sbc8 f a b) := by
  have hborrow : (if f.c = true then (0 : Int) else 1) = 1 - f.c.toNat := by cases f.c <;> rfl
  rw [hborrow]
  exact (add8_isSum f a (~~~b) f.c).isDifference

/-- Settles O43: the adder's integer meaning, and subtraction as the sum with the one's complement. -/
theorem sumsAndDifferences : Obligations.SumsAndDifferences := fun f a b cin =>
  ⟨add8_isSum f a b cin, (add8_isSum f a b cin).ov_iff, sub8_isDifference f a b, sbc8_isDifference f a b⟩

end Sys2Proof.Machine
end

section
/-! What a step can do, said once. A step is a boundary and at most one instruction (`step_next`), and what every
operation of a boundary keeps, the boundary keeps (`KeptAtBoundary.boundary`): the environment's moves by induction on
their list, then the resets, the wake-up and the interrupt entry. -/

namespace Sys2Proof.Machine

/-- The state a boundary comes to, whether the step ends there or an instruction is to execute. -/
def Boundary.state : Boundary → State
  | .ends s => s
  | .execute s => s

@[simp] theorem Boundary.ends_state (s : State) : (Boundary.ends s).state = s := rfl
@[simp] theorem Boundary.execute_state (s : State) : (Boundary.execute s).state = s := rfl

/-- `P` is kept by each operation that a boundary is made of (70_reset_and_hazards.md R645 steps 1 to 4). -/
structure KeptAtBoundary (P : State → Prop) : Prop where
  environment : ∀ {s : State} (e : Env), P s → P { s with env := e }
  sampling : ∀ {s : State} (p : Pads), P s → P (samplePads p s)
  move : ∀ {s t : State} {m : EnvMove}, P s → applyMove m s = .goesOn t → P t
  reset : ∀ {s : State} (k : ResetKind), P s → P (applyReset k s)
  wakeUp : ∀ {s : State}, P s → P s.wake
  ageing : ∀ {s : State}, P s → P s.ageRequests
  entry : ∀ {s : State} (src : IrqSource), P s → P (enterInterrupt src s)

namespace KeptAtBoundary
variable {P : State → Prop} {s : State}

theorem keepMoves (hP : KeptAtBoundary P) (h : P s) (ms : List EnvMove) : P (s.keepMoves ms) := by
  cases ms with
  | nil => exact h
  | cons m ms => exact hP.environment _ h

theorem runMoves (hP : KeptAtBoundary P) (h : P s) (ms : List EnvMove) : P (runMoves ms s).state := by
  induction ms generalizing s with
  | nil => exact h
  | cons m ms ih =>
    cases hm : applyMove m s with
    | goesOn t => simpa [Machine.runMoves, hm] using ih (hP.move h hm)
    | resets k => simpa [Machine.runMoves, hm] using hP.keepMoves (hP.reset k h) ms

theorem listedMoves (hP : KeptAtBoundary P) (h : P s) : P (listedMoves s).state := by
  unfold Machine.listedMoves
  split
  · exact hP.sampling _ h
  · exact hP.runMoves (hP.sampling _ (hP.environment _ h)) _

theorem environmentMoves (hP : KeptAtBoundary P) (h : P s) : P (environmentMoves s).state := by
  have hlisted := hP.listedMoves h
  cases hb : Machine.environmentMoves s with
  | ends t =>
    rcases environmentMoves_ends hb with hl | ⟨u, hl, -, rfl⟩
    · rwa [hl] at hlisted
    · rw [hl] at hlisted
      exact hP.reset _ hlisted
  | execute t =>
    rwa [(environmentMoves_execute.1 hb).1] at hlisted

theorem wakeAndAcknowledge (hP : KeptAtBoundary P) (h : P s) : P (wakeAndAcknowledge s).state := by
  have hawake : P s.wake.ageRequests := hP.ageing (hP.wakeUp h)
  unfold Machine.wakeAndAcknowledge
  split
  · exact h
  · dsimp only
    split
    · exact hP.entry _ hawake
    · exact hawake

theorem afterMoves (hP : KeptAtBoundary P) (h : P s) : P (afterMoves s).state := by
  unfold Machine.afterMoves
  split
  · exact hP.reset _ h
  · exact hP.wakeAndAcknowledge h

/-- What each operation of a boundary keeps, the boundary keeps. -/
theorem boundary (hP : KeptAtBoundary P) (h : P s) : P (boundary s).state := by
  have henv := hP.environmentMoves h
  unfold Machine.boundary
  split
  · next hb => rwa [hb] at henv
  · next hb => rw [hb] at henv; exact hP.afterMoves henv

theorem boundary_ends {t : State} (hP : KeptAtBoundary P) (h : P s) (hb : Machine.boundary s = .ends t) : P t := by
  have ht := hP.boundary h
  rwa [hb] at ht

theorem boundary_execute {t : State} (hP : KeptAtBoundary P) (h : P s) (hb : Machine.boundary s = .execute t) :
    P t := by
  have ht := hP.boundary h
  rwa [hb] at ht

end KeptAtBoundary

theorem fetch_ok {s t : State} {i : Instr} (h : fetch s = .ok (i, t)) : t = s.setPc (s.pc + 1#11) := by
  unfold fetch at h
  split at h <;> cases h
  rfl

theorem runInstruction_next {s t : State} (h : runInstruction s = .next t) :
    ∃ i v, exec i (s.setPc (s.pc + 1#11)) = .next v ∧ t = countInstruction (s.setPc (s.pc + 1#11)) v := by
  unfold runInstruction at h
  split at h
  · cases h
  · next i u hf =>
    obtain ⟨v, hv, hc⟩ := andThen_next.1 h
    cases hc
    cases fetch_ok hf
    exact ⟨i, v, hv, rfl⟩

/-- A step ends at its boundary, or executes one instruction there and counts its cycles. -/
theorem step_next {s t : State} (h : step s = .next t) :
    boundary s = .ends t ∨
      ∃ u i v, boundary s = .execute u ∧ exec i (u.setPc (u.pc + 1#11)) = .next v ∧
        t = countInstruction (u.setPc (u.pc + 1#11)) v := by
  unfold step at h
  split at h
  · next hb => cases h; exact .inl hb
  · next u hb =>
    obtain ⟨i, v, hv, rfl⟩ := runInstruction_next h
    exact .inr ⟨u, i, v, hb, hv, rfl⟩

end Sys2Proof.Machine
end

section
/-! Program memory and the configuration are constants of the machine (10_state.md R20 (d), (f), R26). -/

namespace Sys2Proof.Machine

@[simp] theorem State.skipIf_rom (s : State) (c : Bool) : (s.skipIf c).rom = s.rom := by cases c <;> rfl
@[simp] theorem State.skipIf_config (s : State) (c : Bool) : (s.skipIf c).config = s.config := by cases c <;> rfl
@[simp] theorem State.skipIf_flags (s : State) (c : Bool) : (s.skipIf c).flags = s.flags := by cases c <;> rfl
@[simp] theorem State.skipIf_halt (s : State) (c : Bool) : (s.skipIf c).halt = s.halt := by cases c <;> rfl

/-- Entering HALT changes nothing but the watchdog, before the flags and the halted state. -/
theorem State.wdtOnHalt_state (s : State) : ∃ w, s.wdtOnHalt = s.setWdt w := by
  unfold State.wdtOnHalt
  split
  · exact ⟨_, rfl⟩
  · exact ⟨s.wdt, rfl⟩

namespace State.sameChip
variable {s t u : State}

theorem refl (s : State) : s.sameChip s := ⟨rfl, rfl⟩

theorem trans (hst : s.sameChip t) (htu : t.sameChip u) : s.sameChip u :=
  ⟨htu.1.trans hst.1, htu.2.trans hst.2⟩

theorem samplePads (p : Pads) (s : State) : s.sameChip (samplePads p s) := by
  obtain ⟨a, b, e, t, r, hs⟩ := samplePads_state p s
  rw [hs]
  exact ⟨rfl, rfl⟩

theorem applyMove {m : EnvMove} (h : applyMove m s = .goesOn t) : s.sameChip t := by
  obtain ⟨u, c, r, rfl, -⟩ := applyMove_goesOn h
  exact ⟨rfl, rfl⟩

theorem wake (s : State) : s.sameChip s.wake := by
  unfold State.wake
  split <;> exact ⟨rfl, rfl⟩

theorem keptAtBoundary (s : State) : KeptAtBoundary s.sameChip where
  environment _ h := h.trans ⟨rfl, rfl⟩
  sampling p h := h.trans (samplePads p _)
  move h hm := h.trans (applyMove hm)
  reset _ h := h.trans ⟨rfl, rfl⟩
  wakeUp h := h.trans (wake _)
  ageing h := h.trans ⟨rfl, rfl⟩
  entry _ h := h.trans ⟨rfl, rfl⟩

theorem effect (h : Effect s t) : s.sameChip t := by
  cases h with
  | nothing => exact ⟨rfl, rfl⟩
  | imm r => exact ⟨rfl, rfl⟩
  | acc m r => simp [State.sameChip, State.toAcc]
  | modify m v f c ha => simp [State.sameChip]
  | store m v ha => simp [State.sameChip]
  | table m v x ha => simp [State.sameChip]
  | skip m a c => simp [State.sameChip]
  | jump a => exact ⟨rfl, rfl⟩
  | call a => exact ⟨rfl, rfl⟩
  | ret a rest x e hs => exact ⟨rfl, rfl⟩
  | preclear p => exact ⟨rfl, rfl⟩
  | clearWdt => exact ⟨rfl, rfl⟩
  | halt =>
    obtain ⟨w, hw⟩ := s.wdtOnHalt_state
    simp [State.sameChip, hw]

theorem countInstruction (before after : State) : after.sameChip (countInstruction before after) := by
  obtain ⟨c, r, w, g, hc, -⟩ := countInstruction_state before after
  simp [State.sameChip, hc]

end State.sameChip

/-- Settles O9: every operation of a boundary, every instruction's effect and the counting of its cycles keep the chip.
-/
theorem programMemoryConstant : Obligations.ProgramMemoryConstant := by
  intro s t h
  have hkept := State.sameChip.keptAtBoundary s
  have hs := State.sameChip.refl s
  rcases step_next h with hb | ⟨u, i, v, hb, hv, rfl⟩
  · exact hkept.boundary_ends hs hb
  · have hu : s.sameChip u := hkept.boundary_execute hs hb
    have hpc : s.sameChip (u.setPc (u.pc + 1#11)) := hu.trans ⟨rfl, rfl⟩
    exact (hpc.trans (.effect (exec_effect hv))).trans (.countInstruction _ v)

end Sys2Proof.Machine
end

section
/-! The invariant of the machine, step by step. An agent keeps the whole invariant, since it changes neither STATUS nor
the halted state and only raises request flags (`State.Inv.of_raise`). An instruction keeps `State.DataInv`, and only
HALT touches the halted state (`Effect.halted_or`); the counting of its cycles settles the ages and the waits
(`State.DataInv.inv_countInstruction`). -/

namespace Sys2Proof.Machine

/-- A request flag that is 0 has age 0 once the ages are settled. -/
theorem State.settleAges_usbAge {s : State} (h : s.intc.usbf = false) : s.settleAges.irqAge.usb = 0 := by
  simp [State.settleAges, h]

theorem State.settleAges_timerAge {s : State} (h : s.intc.tf = false) : s.settleAges.irqAge.timer = 0 := by
  simp [State.settleAges, h]

theorem State.ageRequests_usbAge {s : State} (h : s.intc.usbf = false) : s.ageRequests.irqAge.usb = 0 := by
  simp [State.ageRequests, h]

theorem State.ageRequests_timerAge {s : State} (h : s.intc.tf = false) : s.ageRequests.irqAge.timer = 0 := by
  simp [State.ageRequests, h]

theorem Intc.tf_of_raiseTf {i : Intc} {r : Bool} (h : (i.raiseTf r).tf = false) : i.tf = false :=
  (Bool.or_eq_false_iff.1 h).1

theorem Intc.usbf_of_raiseUsbf {i : Intc} {r : Bool} (h : (i.raiseUsbf r).usbf = false) : i.usbf = false :=
  (Bool.or_eq_false_iff.1 h).1

theorem Gap.none_atMost (n : Nat) : Gap.none.atMost n := ⟨Nat.zero_le n, Nat.zero_le n, Nat.zero_le n⟩

theorem Gap.none_settled : Gap.none.settled := ⟨rfl, rfl, rfl⟩

namespace State.DataInv
variable {s t : State}

theorem wdtOnHalt (h : s.DataInv) : s.wdtOnHalt.DataInv := by
  obtain ⟨w, hw⟩ := s.wdtOnHalt_state
  rw [hw]
  exact h.setWdt w

/-- A write of an instruction's resolved operand keeps the invariant. -/
theorem storeEa (h : s.DataInv) (m : DataAddr) (u : State) (v : Byte) : (Machine.storeLoc (ea m u) v s).DataInv :=
  h.storeLoc (fun _ ha => (ea_ram ha).1) v

/-- Every instruction keeps the invariant. -/
theorem effect (h : s.DataInv) (he : Effect s t) : t.DataInv := by
  cases he with
  | nothing => exact h.addCycles 1
  | imm r => exact ((h.setAcc _).setFlags _).addCycles 1
  | acc m r => exact (((h.memRead _).setAcc _).setFlags _).addCycles 1
  | modify m v f c ha => exact ((((h.memRead _).setFlags f).addCycles 1).skipIf c).storeEa m s v
  | store m v ha => exact (h.addCycles 1).storeEa m s v
  | table m v x ha =>
    have htblh : ({ s with tblh := x } : State).DataInv := h.congr rfl rfl rfl rfl rfl rfl rfl
    exact (htblh.addCycles 2).storeEa m s v
  | skip m a c => exact (((h.memRead _).setAcc a).addCycles 1).skipIf c
  | jump a => exact (h.setPc a).addCycles 2
  | call a => exact ((h.push s.pc).setPc a).addCycles 2
  | ret a rest x e hs =>
    have hrest : rest.length ≤ 4 := by
      have hdepth := h.stackDepth
      rw [hs, List.length_cons] at hdepth
      omega
    exact ((((h.setStk hrest).setPc a).setAcc x).setIntc _).addCycles 2
  | preclear p => exact (h.setWdt _).addCycles 1
  | clearWdt => exact ((h.setWdt _).setFlags _).addCycles 1
  | halt => exact ((h.wdtOnHalt.setFlags _).setHalt _).addCycles 1

end State.DataInv

/-- An instruction leaves the halted state as it is, or it is HALT, which sets PDF and clears TO (45_table_misc.md
R318). -/
theorem Effect.halted_or {s t : State} (he : Effect s t) :
    t.halt = s.halt ∨ (t.flags.pdf = true ∧ t.flags.timeout = false) := by
  cases he with
  | nothing => exact .inl rfl
  | imm r => exact .inl rfl
  | acc m r => exact .inl (memRead_halt _ _)
  | modify m v f c ha => exact .inl (by simp)
  | store m v ha => exact .inl (storeLoc_halt _ _ _)
  | table m v x ha => exact .inl (storeLoc_halt _ _ _)
  | skip m a c => exact .inl (by simp)
  | jump a => exact .inl rfl
  | call a => exact .inl rfl
  | ret a rest x e hs => exact .inl rfl
  | preclear p => exact .inl rfl
  | clearWdt => exact .inl rfl
  | halt => exact .inr ⟨rfl, rfl⟩

/-- The counting of an instruction's cycles settles the ages and the waits. -/
theorem State.DataInv.inv_countInstruction {after : State} (h : after.DataInv) (before : State)
    (hhalt : after.halt.halted = true → after.flags.pdf = true ∧ after.flags.timeout = false) :
    (Machine.countInstruction before after).Inv := by
  have hd := h.countInstruction (s := before)
  obtain ⟨c, r, w, g, hc, -, -, -, hg⟩ := countInstruction_state before after
  rw [hc] at hd ⊢
  exact { hd with
    haltFlags := hhalt
    usbAge := State.settleAges_usbAge (s := after)
    timerAge := fun hf => State.settleAges_timerAge (Intc.tf_of_raiseTf hf)
    gapSettled := hg }

namespace State.Inv
variable {s t : State}

/-- What keeps the halted state, STATUS, the ages and the waits, and clears no request flag, keeps the invariant. -/
theorem of_raise (h : s.Inv) (ht : t.DataInv) (hhalt : t.halt.halted = s.halt.halted) (hflags : t.flags = s.flags)
    (hage : t.irqAge = s.irqAge) (hgap : t.gap = s.gap) (husb : t.intc.usbf = false → s.intc.usbf = false)
    (htimer : t.intc.tf = false → s.intc.tf = false) : t.Inv where
  toDataInv := ht
  haltFlags := by rw [hhalt, hflags]; exact h.haltFlags
  usbAge hf := by rw [hage]; exact h.usbAge (husb hf)
  timerAge hf := by rw [hage]; exact h.timerAge (htimer hf)
  gapSettled := by rw [hgap]; exact h.gapSettled

theorem setEnv (h : s.Inv) (e : Env) : ({ s with env := e } : State).Inv :=
  h.of_raise (h.congr rfl rfl rfl rfl rfl rfl rfl) rfl rfl rfl rfl id id

theorem samplePads (h : s.Inv) (p : Pads) : (samplePads p s).Inv := by
  have hd := h.toDataInv.samplePads p
  obtain ⟨a, b, e, t, r, hs⟩ := samplePads_state p s
  rw [hs] at hd ⊢
  exact h.of_raise hd rfl rfl rfl rfl id Intc.tf_of_raiseTf

theorem applyMove {m : EnvMove} (h : s.Inv) (hm : applyMove m s = .goesOn t) : t.Inv := by
  have hd := h.toDataInv.applyMove hm
  obtain ⟨u, c, r, rfl, -⟩ := applyMove_goesOn hm
  exact h.of_raise hd rfl rfl rfl rfl Intc.usbf_of_raiseUsbf id

/-- After a reset the machine runs, no request flag has an age and no wait is running. -/
theorem of_reset (h : s.DataInv) (k : ResetKind) : (applyReset k s).Inv where
  toDataInv := h.applyReset k
  haltFlags hh := nomatch hh
  usbAge _ := rfl
  timerAge _ := rfl
  gapSettled := Gap.none_settled

theorem wake (h : s.Inv) : s.wake.Inv := by
  unfold State.wake
  split
  · exact { (h.toDataInv.setHalt _).setGap (Gap.none_atMost _) with
      haltFlags := fun hh => nomatch hh
      usbAge := h.usbAge
      timerAge := h.timerAge
      gapSettled := Gap.none_settled }
  · exact h

theorem ageRequests (h : s.Inv) : s.ageRequests.Inv where
  toDataInv := h.toDataInv.ageRequests
  haltFlags := h.haltFlags
  usbAge := State.ageRequests_usbAge (s := s)
  timerAge := State.ageRequests_timerAge (s := s)
  gapSettled := h.gapSettled

theorem enterInterrupt (h : s.Inv) (src : IrqSource) : (enterInterrupt src s).Inv where
  toDataInv := h.toDataInv.enterInterrupt src
  haltFlags := h.haltFlags
  usbAge := State.settleAges_usbAge (s := ((s.push s.pc).setPc src.vector).setIntc (s.intc.acknowledge src))
  timerAge := State.settleAges_timerAge (s := ((s.push s.pc).setPc src.vector).setIntc (s.intc.acknowledge src))
  gapSettled := h.gapSettled

theorem keptAtBoundary : KeptAtBoundary State.Inv where
  environment e h := h.setEnv e
  sampling p h := h.samplePads p
  move h hm := h.applyMove hm
  reset k h := of_reset h.toDataInv k
  wakeUp h := h.wake
  ageing h := h.ageRequests
  entry src h := h.enterInterrupt src

/-- An instruction that a running machine executes keeps the invariant, its cycles counted. -/
theorem of_effect (h : s.DataInv) (hrun : s.halt.halted = false) (he : Effect s t) (before : State) :
    (countInstruction before t).Inv := by
  refine (h.effect he).inv_countInstruction before fun hh => ?_
  rcases he.halted_or with heq | hflags
  · rw [heq, hrun] at hh
    cases hh
  · exact hflags

end State.Inv

theorem State.wake_halted (s : State) : s.wake.halt.halted = false := by
  unfold State.wake
  split
  · rfl
  · next h => exact Bool.eq_false_iff.2 h

/-- An instruction executes only while the machine runs (60_exceptions.md R430). -/
theorem boundary_execute_running {s t : State} (h : boundary s = .execute t) : t.halt.halted = false := by
  unfold boundary at h
  split at h
  · cases h
  · next u _ =>
    unfold afterMoves wakeAndAcknowledge at h
    split at h
    · cases h
    · split at h
      · cases h
      · dsimp only at h
        split at h <;> cases h
        exact u.wake_halted

/-- Settles O7: the boundary keeps the invariant, and the instruction that follows it starts from a running machine. -/
theorem invariantKept : Obligations.InvariantKept := by
  intro s t hs h
  rcases step_next h with hb | ⟨u, i, v, hb, hv, rfl⟩
  · exact State.Inv.keptAtBoundary.boundary_ends hs hb
  · have hu : u.Inv := State.Inv.keptAtBoundary.boundary_execute hs hb
    have hrun : u.halt.halted = false := boundary_execute_running hb
    exact State.Inv.of_effect (hu.toDataInv.setPc (u.pc + 1#11)) hrun (exec_effect hv) _

end Sys2Proof.Machine
end

section
/-! RAM as plain storage (10_state.md R30) and the two ways a program meets PCL (10_state.md R25). -/

namespace Sys2Proof.Machine

/-- What a location of RAM reads as is its byte in the RAM list; the read has no side effect. -/
theorem memRead_ram_loc (b : DataAddr) (s : State) : memRead (.ram b) s = (s.ram.read b.toNat, s) := rfl

theorem storeLoc_ram_loc (a : DataAddr) (v : Byte) (s : State) :
    (storeLoc (.ram a) v s).ram = s.ram.write a.toNat v := rfl

/-- Settles O32: a write of RAM is a write of the RAM list at the location's own address. -/
theorem ramReadAfterWrite : Obligations.RamReadAfterWrite := by
  intro s a b v hwf
  refine ⟨?readBack, rfl, Memory.wf_write hwf⟩
  case readBack =>
    rw [memRead_ram_loc, memRead_ram_loc, storeLoc_ram_loc, Memory.read_write hwf]
    simp only [BitVec.toNat_inj]

/-- A page number in front of a byte is the address of that word of the page. -/
theorem toNat_page_append (page : BitVec 3) (v : Byte) :
    (page ++ v : BitVec (3 + 8)).toNat = 256 * page.toNat + v.toNat := by
  rw [BitVec.toNat_append, ← Nat.shiftLeft_add_eq_or_of_lt v.isLt, Nat.shiftLeft_eq]
  omega

theorem toNat_pc_page (pc : ProgAddr) : (pc.extractLsb' 8 3).toNat = pc.toNat / 256 := by
  have hpc := pc.isLt
  rw [BitVec.extractLsb'_toNat, Nat.shiftRight_eq_div_pow]
  omega

/-- Settles O35: PC splits into its page and PCL, and a load of PCL replaces the second part. -/
theorem pclLoadJumpsInPage : Obligations.PclLoadJumpsInPage := by
  intro s v
  refine ⟨?low, rfl, ?target, rfl⟩
  case low => exact BitVec.extractLsb'_toNat ..
  case target =>
    calc (storeLoc .pcl v s).pc.toNat
        = 256 * (s.pc.extractLsb' 8 3).toNat + v.toNat := toNat_page_append _ v
      _ = 256 * (s.pc.toNat / 256) + v.toNat := by rw [toNat_pc_page]

end Sys2Proof.Machine
end

section
/-! Who writes the flags (10_state.md R39, R57). `FlagsWithin` says what each class of instruction may change; the
flag computations of Machine/Flags.lean stay within their classes. `KeepsFlagRules` is the rule for one execution,
and each operand form obeys it: a form that reads only leaves the flags or sets those of its class, a form that writes
`[m]` and sets flags refuses STATUS, and a form that writes `[m]` and sets none may write STATUS. -/

namespace Sys2Proof.Machine

/-- The flags `g` differ from `f` only where an instruction with the effect `e` may change them (10_state.md R57). -/
structure FlagsWithin (e : FlagEffect) (f g : Flags) : Prop where
  power : e ≠ .power → g.timeout = f.timeout ∧ g.pdf = f.pdf
  carry : e ≠ .arith → e ≠ .carry → g.c = f.c
  zero : e ≠ .arith → e ≠ .zero → g.z = f.z
  arith : e ≠ .arith → g.ac = f.ac ∧ g.ov = f.ov

/-! The flag computations. -/

theorem FlagsWithin.refl (e : FlagEffect) (f : Flags) : FlagsWithin e f f :=
  ⟨fun _ => ⟨rfl, rfl⟩, fun _ _ => rfl, fun _ _ => rfl, fun _ => ⟨rfl, rfl⟩⟩

theorem add8_within (f : Flags) (a b : Byte) (cin : Bool) : FlagsWithin .arith f (add8 f a b cin).2 where
  power _ := ⟨rfl, rfl⟩
  carry h := absurd rfl h
  zero h := absurd rfl h
  arith h := absurd rfl h

theorem zeroOnly_within (f : Flags) (r : Byte) : FlagsWithin .zero f (zeroOnly f r).2 where
  power _ := ⟨rfl, rfl⟩
  carry _ _ := rfl
  zero _ h := absurd rfl h
  arith _ := ⟨rfl, rfl⟩

theorem withCarry_within (f : Flags) (c : Bool) : FlagsWithin .carry f (f.withCarry c) where
  power _ := ⟨rfl, rfl⟩
  carry _ h := absurd rfl h
  zero _ _ := rfl
  arith _ := ⟨rfl, rfl⟩

theorem Flags.write_power (f : Flags) (v : Byte) : (f.write v).timeout = f.timeout ∧ (f.write v).pdf = f.pdf :=
  ⟨rfl, rfl⟩

/-- Only a write of STATUS changes the flags. -/
theorem storeLoc_flags {l : Loc} (h : l ≠ .status) (v : Byte) (s : State) : (storeLoc l v s).flags = s.flags := by
  cases l
  case status => exact absurd rfl h
  case misc =>
    rw [storeLoc, State.writeMisc]
    split <;> rfl
  case fifo k =>
    obtain ⟨u, g, hs, -⟩ := s.writeFifo_state k v
    rw [storeLoc, hs]
    rfl
  all_goals rfl

/-- A write, whatever the location, leaves TO and PDF (10_state.md R39). -/
theorem storeLoc_power_flags (l : Loc) (v : Byte) (s : State) :
    (storeLoc l v s).flags.timeout = s.flags.timeout ∧ (storeLoc l v s).flags.pdf = s.flags.pdf := by
  by_cases h : l = .status
  · subst h
    exact Flags.write_power s.flags v
  · rw [storeLoc_flags h]
    exact ⟨rfl, rfl⟩

/-- The destination of `i` in state `s` is STATUS. -/
def WritesStatus (i : Instr) (s : State) : Prop := ∃ m, i.dest = some m ∧ ea m s = .status

/-- The execution of `i` from `s` to `t` changes only the flags that it may. -/
structure KeepsFlagRules (i : Instr) (s t : State) : Prop where
  power : i.flagEffect ≠ .power → t.flags.timeout = s.flags.timeout ∧ t.flags.pdf = s.flags.pdf
  others : ¬WritesStatus i s → FlagsWithin i.flagEffect s.flags t.flags
  status : WritesStatus i s → i.flagEffect = .none

namespace KeepsFlagRules
variable {i : Instr} {s t : State} {m : DataAddr}

theorem of_within (h : FlagsWithin i.flagEffect s.flags t.flags) (hs : ¬WritesStatus i s) : KeepsFlagRules i s t where
  power := h.power
  others _ := h
  status hw := absurd hw hs

theorem not_writesStatus_of_dest_none (hd : i.dest = none) : ¬WritesStatus i s := by
  rintro ⟨m, hm, -⟩
  rw [hd] at hm
  cases hm

theorem writesStatus_iff (hd : i.dest = some m) : WritesStatus i s ↔ ea m s = .status := by
  simp [WritesStatus, hd]

/-- An instruction that does not write `[m]` and leaves the flags. -/
theorem of_flags_eq (hd : i.dest = none) (h : t.flags = s.flags) : KeepsFlagRules i s t := by
  refine of_within ?_ (not_writesStatus_of_dest_none hd)
  rw [h]
  exact .refl _ _

/-- An instruction that sets no flag and ends in a write of `[m]`. -/
theorem of_store {u : State} {v : Byte} (hd : i.dest = some m) (he : i.flagEffect = .none) (hu : u.flags = s.flags) :
    KeepsFlagRules i s (storeLoc (ea m s) v u) where
  power _ := hu ▸ storeLoc_power_flags _ v u
  others hs := by
    rw [storeLoc_flags (mt (writesStatus_iff hd).2 hs), hu]
    exact .refl _ _
  status _ := he

theorem of_accForm {f : State → Byte → Byte × Flags} (h : accForm m s f = .next t) (hd : i.dest = none)
    (hf : ∀ u v, FlagsWithin i.flagEffect u.flags (f u v).2) : KeepsFlagRules i s t := by
  obtain ⟨-, rfl⟩ := accForm_next.1 h
  refine of_within ?_ (not_writesStatus_of_dest_none hd)
  exact memRead_flags (ea m s) s ▸ hf (memRead (ea m s) s).2 (memRead (ea m s) s).1

theorem of_immForm {x : Byte} {f : State → Byte → Byte × Flags} (h : immForm x s f = .next t) (hd : i.dest = none)
    (hf : ∀ u v, FlagsWithin i.flagEffect u.flags (f u v).2) : KeepsFlagRules i s t := by
  cases h
  exact of_within (hf s x) (not_writesStatus_of_dest_none hd)

theorem of_modifyFlagForm {f : State → Byte → Byte × Flags} (h : modifyFlagForm m s f = .next t)
    (hd : i.dest = some m) (hf : ∀ u v, FlagsWithin i.flagEffect u.flags (f u v).2) : KeepsFlagRules i s t := by
  obtain ⟨-, hs, -, rfl⟩ := modifyFlagForm_next.1 h
  refine of_within ?_ (mt (writesStatus_iff hd).1 hs)
  rw [storeLoc_flags hs]
  exact memRead_flags (ea m s) s ▸ hf (memRead (ea m s) s).2 (memRead (ea m s) s).1

theorem of_modifyForm {f : Byte → Byte} (h : modifyForm m s f = .next t) (hd : i.dest = some m)
    (he : i.flagEffect = .none) : KeepsFlagRules i s t := by
  obtain ⟨-, -, rfl⟩ := modifyForm_next.1 h
  exact of_store hd he (by simp)

theorem of_modifySkipForm {f : Byte → Byte} (h : modifySkipForm m s f = .next t) (hd : i.dest = some m)
    (he : i.flagEffect = .none) : KeepsFlagRules i s t := by
  obtain ⟨-, -, -, rfl⟩ := modifySkipForm_next.1 h
  exact of_store hd he (by simp)

theorem of_storeForm {v : Byte} (h : storeForm m s v = .next t) (hd : i.dest = some m) (he : i.flagEffect = .none) :
    KeepsFlagRules i s t := by
  obtain ⟨-, -, rfl⟩ := storeForm_next.1 h
  exact of_store hd he rfl

theorem of_tableRead {a : ProgAddr} (h : tableRead a m s = .next t) (hd : i.dest = some m)
    (he : i.flagEffect = .none) : KeepsFlagRules i s t := by
  obtain ⟨-, -, rfl⟩ := tableRead_next.1 h
  exact of_store hd he rfl

theorem of_testSkipForm {test : Byte → Bool} (h : testSkipForm m s test = .next t) (hd : i.dest = none) :
    KeepsFlagRules i s t := by
  obtain ⟨-, rfl⟩ := testSkipForm_next.1 h
  exact of_flags_eq hd (by simp)

theorem of_accSkipForm {f : Byte → Byte} (h : accSkipForm m s f = .next t) (hd : i.dest = none) :
    KeepsFlagRules i s t := by
  obtain ⟨-, rfl⟩ := accSkipForm_next.1 h
  exact of_flags_eq hd (by simp)

theorem of_returnWith {g : State → State} (h : returnWith s g = .next t) (hd : i.dest = none)
    (hg : ∀ u, (g u).flags = u.flags) : KeepsFlagRules i s t := by
  obtain ⟨a, rest, -, rfl⟩ := returnWith_next.1 h
  exact of_flags_eq hd (by simp [hg])

/-- The CLR WDT group and HALT leave C, AC, Z and OV. -/
theorem of_power (hd : i.dest = none) (he : i.flagEffect = .power) (hc : t.flags.c = s.flags.c)
    (hz : t.flags.z = s.flags.z) (hac : t.flags.ac = s.flags.ac) (hov : t.flags.ov = s.flags.ov) :
    KeepsFlagRules i s t :=
  of_within ⟨fun h => absurd he h, fun _ _ => hc, fun _ _ => hz, fun _ => ⟨hac, hov⟩⟩
    (not_writesStatus_of_dest_none hd)

theorem of_preclearWdt {mine other : Preclear} (hd : i.dest = none) (he : i.flagEffect = .power) :
    KeepsFlagRules i s ((s.preclearWdt mine other).addCycles 1) := by
  unfold State.preclearWdt
  split
  · exact of_power hd he rfl rfl rfl rfl
  · split
    · exact of_power hd he rfl rfl rfl rfl
    · exact of_power hd he rfl rfl rfl rfl

end KeepsFlagRules

/-- Every instruction keeps to the flags of its class, by its operand form. -/
theorem exec_keepsFlagRules {i : Instr} {s t : State} (h : exec i s = .next t) : KeepsFlagRules i s t := by
  cases i
  case addAM | adcAM | subAM | sbcAM =>
    simp only [exec_addAM, exec_adcAM, exec_subAM, exec_sbcAM] at h
    exact .of_accForm h rfl fun _ _ => add8_within ..
  case addAx | subAx =>
    simp only [exec_addAx, exec_subAx] at h
    exact .of_immForm h rfl fun _ _ => add8_within ..
  case addmAM | adcmAM | submAM | sbcmAM =>
    simp only [exec_addmAM, exec_adcmAM, exec_submAM, exec_sbcmAM] at h
    exact .of_modifyFlagForm h rfl fun _ _ => add8_within ..
  case andAM | orAM | xorAM | cplaM | incaM | decaM =>
    simp only [exec_andAM, exec_orAM, exec_xorAM, exec_cplaM, exec_incaM, exec_decaM] at h
    exact .of_accForm h rfl fun _ _ => zeroOnly_within ..
  case andAx | orAx | xorAx =>
    simp only [exec_andAx, exec_orAx, exec_xorAx] at h
    exact .of_immForm h rfl fun _ _ => zeroOnly_within ..
  case andmAM | ormAM | xormAM | cplM | incM | decM =>
    simp only [exec_andmAM, exec_ormAM, exec_xormAM, exec_cplM, exec_incM, exec_decM] at h
    exact .of_modifyFlagForm h rfl fun _ _ => zeroOnly_within ..
  case rrcaM | rlcaM =>
    simp only [exec_rrcaM, exec_rlcaM] at h
    exact .of_accForm h rfl fun _ _ => withCarry_within ..
  case rrcM | rlcM | daaM =>
    simp only [exec_rrcM, exec_rlcM, exec_daaM] at h
    exact .of_modifyFlagForm h rfl fun _ _ => withCarry_within ..
  case movAM | rraM | rlaM | swapaM =>
    simp only [exec_movAM, exec_rraM, exec_rlaM, exec_swapaM] at h
    exact .of_accForm h rfl fun _ _ => .refl ..
  case movAx => rw [exec_movAx] at h; exact .of_immForm h rfl fun _ _ => .refl ..
  case rrM | rlM | swapM | setBit | clrBit =>
    simp only [exec_rrM, exec_rlM, exec_swapM, exec_setBit, exec_clrBit] at h
    exact .of_modifyForm h rfl rfl
  case sizM | sdzM =>
    simp only [exec_sizM, exec_sdzM] at h
    exact .of_modifySkipForm h rfl rfl
  case movMA | clrM | setM =>
    simp only [exec_movMA, exec_clrM, exec_setM] at h
    exact .of_storeForm h rfl rfl
  case tabrdcM | tabrdlM =>
    simp only [exec_tabrdcM, exec_tabrdlM] at h
    exact .of_tableRead h rfl rfl
  case szM | szBit | snzBit =>
    simp only [exec_szM, exec_szBit, exec_snzBit] at h
    exact .of_testSkipForm h rfl
  case szaM | sizaM | sdzaM =>
    simp only [exec_szaM, exec_sizaM, exec_sdzaM] at h
    exact .of_accSkipForm h rfl
  case ret | retAx | reti => exact .of_returnWith h rfl fun _ => rfl
  case nop | jmp | call => cases h; exact .of_flags_eq rfl rfl
  case clrWdt | clrWdt1 | clrWdt2 => cases h; exact .of_preclearWdt rfl rfl
  case halt => cases h; exact .of_power rfl rfl rfl rfl rfl rfl

/-- Settles O38: the flag rules of the operand forms, instruction by instruction. -/
theorem flagFrame : Obligations.FlagFrame := by
  intro i s t h
  obtain ⟨hpower, hothers, hstatus⟩ := exec_keepsFlagRules h
  refine ⟨hpower, fun hs => ?_, hstatus⟩
  obtain ⟨-, hcarry, hzero, harith⟩ := hothers hs
  exact ⟨hcarry, hzero, harith⟩

end Sys2Proof.Machine
end

section
/-! Where an operand leads (20_memory.md R103, R106; 10_state.md R31, R48, R49): what the two bank maps are above the
register addresses they list, and that indirection ends at the unimplemented location. -/

namespace Sys2Proof.Machine

/-- From 20H up bank 0 is general purpose RAM. -/
theorem bank0_of_ge {a : DataAddr} (h : 0x20 ≤ a.toNat) : bank0 a = .ram a := by
  unfold bank0
  split
  case h_24 => exact if_neg (by omega)
  all_goals omega

/-- Outside 41H to 49H bank 1 has no location. -/
theorem bank1_of_outside {a : DataAddr} (h : a.toNat < 0x41 ∨ 0x49 < a.toNat) : bank1 a = .unmapped := by
  unfold bank1
  split
  case h_9 => rfl
  all_goals omega

/-- A pointer that holds 00H or 02H reaches the unimplemented location (20_memory.md R106). -/
theorem bank0_of_indirect {a : DataAddr} (h : a = 0x00#7 ∨ a = 0x02#7) : bank0 a = .null := by
  rcases h with rfl | rfl <;> rfl

theorem ea_iar0 (s : State) : ea 0x00#7 s = bank0 s.mp0 := rfl

theorem ea_iar1 (s : State) :
    ea 0x02#7 s = if s.mp1.toNat < 0x20 then bank0 s.mp1 else if s.bp then bank1 s.mp1 else bank0 s.mp1 := rfl

theorem ea_direct {m : DataAddr} (h0 : m ≠ 0x00#7) (h2 : m ≠ 0x02#7) (s : State) : ea m s = bank0 m := by
  rw [ea, if_neg h0, if_neg h2]

/-- Settles O31: the maps address by address, then the three ways of `ea`. -/
theorem operandResolution : Obligations.OperandResolution := by
  refine ⟨by decide, fun _ => bank0_of_ge, by decide, fun _ => bank1_of_outside, fun s => ?_⟩
  refine ⟨?iar0, ?iar1, ?direct, ?null⟩
  case iar0 =>
    rw [ea_iar0]
    split
    · next h => exact bank0_of_indirect h
    · rfl
  case iar1 =>
    rw [ea_iar1]
    by_cases h : s.mp1 = 0x00#7 ∨ s.mp1 = 0x02#7
    · have hlow : s.mp1.toNat < 0x20 := by rcases h with h | h <;> rw [h] <;> decide
      rw [if_pos h, if_pos hlow, bank0_of_indirect h]
    · rw [if_neg h]
      cases s.bp <;> rfl
  case direct => exact fun _ h0 h2 => ea_direct h0 h2 s
  case null => exact fun _ => ⟨rfl, rfl⟩

end Sys2Proof.Machine
end

section
/-! The side effects of a read (20_memory.md R107, R114). `memRead_plain` is about every location but TMRH and the
FIFO registers, which change nothing but the count of free values; a FIFO register is `State.readFifo_state`. -/

namespace Sys2Proof.Machine

/-- Every read of the location shows a free value (62_ports_usb_ps2.md R505, R510; 10_state.md R49). -/
def Loc.ReadsFree (l : Loc) : Prop := l = .pb ∨ l = .pbc ∨ l = .usc ∨ l = .unmapped

/-- Apart from TMRH and the FIFO registers, a read changes nothing but the count of free values: one where a free value
shows, none elsewhere; MISC shows one or none. -/
theorem memRead_plain {l : Loc} (hfifo : ∀ k, l ≠ .fifo k) (htmrh : l ≠ .tmrh) (s : State) :
    (memRead l s).2 = s ∧ ¬l.ReadsFree ∨ (memRead l s).2 = s.addDraws 1 ∧ (l = .misc ∨ l.ReadsFree) := by
  unfold Loc.ReadsFree
  cases l
  case tmrh => exact absurd rfl htmrh
  case fifo k => exact absurd rfl (hfifo k)
  case misc => exact s.readMisc_state.imp (⟨·, by decide⟩) (⟨·, by decide⟩)
  case pb | pbc | usc | unmapped => exact .inr ⟨rfl, by decide⟩
  all_goals exact .inl ⟨rfl, by simp⟩

theorem Usb.fifo_setFifo_ne {j k : Endpoint} (h : j ≠ k) (u : Usb) (f : Fifo) : (u.setFifo k f).fifo j = u.fifo j := by
  cases j <;> cases k
  case ep0.ep0 | ep1.ep1 => exact absurd rfl h
  all_goals rfl

@[simp] theorem Usb.fifo_setFifo_same (u : Usb) (k : Endpoint) (f : Fifo) : (u.setFifo k f).fifo k = f := by
  cases k <;> rfl

@[simp] theorem Usb.fifo_readAction (u : Usb) (k j : Endpoint) : (u.readAction k).fifo j = u.fifo j := by
  cases k <;> cases j <;> rfl

/-- Settles O34: the locations that only count draws, the timer's latch, and the FIFO registers. -/
theorem readSideEffects : Obligations.ReadSideEffects := by
  intro l s
  refine ⟨fun hfifo htmrh => ?plain, ?tmrh, ?fifo⟩
  case plain =>
    rcases memRead_plain hfifo htmrh s with ⟨h, hfree⟩ | ⟨h, hl⟩
    · rw [h, Nat.sub_self]
      exact ⟨rfl, le_rfl, Nat.le_succ _, fun hl => absurd hl hfree, fun _ _ _ _ _ => rfl⟩
    · rw [h, State.addDraws_draws, Nat.add_sub_cancel_left]
      refine ⟨rfl, Nat.le_succ _, le_rfl, fun _ => rfl, fun hpb hpbc husc hmisc hunmapped => ?_⟩
      rcases hl with rfl | rfl | rfl | rfl | rfl <;> contradiction
  case tmrh =>
    rintro rfl
    rfl
  case fifo =>
    rintro k rfl
    obtain ⟨u, g, n, h, hu, hg, hn⟩ := s.readFifo_state k
    simp only [memRead, h]
    refine ⟨rfl, Nat.le_add_right _ _, Nat.add_le_add_left hn _, hu, hg, fun j hj => ?_⟩
    rcases hu with rfl | rfl | rfl
    · rfl
    · exact s.usb.fifo_readAction k j
    · exact (Usb.fifo_setFifo_ne hj _ _).trans (s.usb.fifo_readAction k j)

end Sys2Proof.Machine
end

section
/-! What a register reads as after a write (20_memory.md R107, R108). A register whose bits are stored one by one is
compared bit by bit (`byte_ext`). A read of MISC after a write is a free value exactly in the wait (`miscWaits_iff`). -/

namespace Sys2Proof.Machine

/-- Two bytes are equal when their eight bits are. -/
theorem byte_ext {a b : Byte} (h0 : a[0] = b[0]) (h1 : a[1] = b[1]) (h2 : a[2] = b[2]) (h3 : a[3] = b[3])
    (h4 : a[4] = b[4]) (h5 : a[5] = b[5]) (h6 : a[6] = b[6]) (h7 : a[7] = b[7]) : a = b := by
  refine BitVec.eq_of_getElem_eq fun i hi => ?_
  interval_cases i <;> assumption

@[simp] theorem getElem_byteOfBits (b7 b6 b5 b4 b3 b2 b1 b0 : Bool) (i : Nat) (hi : i < 8) :
    (byteOfBits b7 b6 b5 b4 b3 b2 b1 b0)[i] = [b0, b1, b2, b3, b4, b5, b6, b7][i] := by
  unfold byteOfBits
  interval_cases i <;> simp only [← BitVec.getLsbD_eq_getElem, BitVec.getLsbD_append] <;> simp

theorem Intc.toByte_ofByte (v : Byte) : (Intc.ofByte v).toByte = v &&& 0x5B#8 := by
  apply byte_ext <;> simp [Intc.toByte, Intc.ofByte]

theorem Tmrc.toByte_ofByte (v : Byte) : (Tmrc.ofByte v).toByte = v &&& 0xD8#8 := by
  apply byte_ext <;> simp [Tmrc.toByte, Tmrc.ofByte]

theorem Flags.toByte_write (f : Flags) (v : Byte) : (f.write v).toByte = (v &&& 0x0F#8) ||| (f.toByte &&& 0x30#8) := by
  apply byte_ext <;> simp [Flags.toByte, Flags.write]

theorem Misc.toByte_ofByte (v : Byte) (ready : Bool) : (Misc.ofByte v).toByte ready &&& 0xBF#8 = v &&& 0xBF#8 := by
  apply byte_ext <;> simp [Misc.toByte, Misc.ofByte]

theorem pointer_readBack (v : Byte) : (1#1 ++ v.extractLsb' 0 7 : BitVec (1 + 7)) = v ||| 0x80#8 := by
  apply byte_ext <;> rw [BitVec.getElem_append] <;> simp

theorem bp_readBack (v : Byte) : (0#7 ++ BitVec.ofBool (v.getLsbD 0) : BitVec (7 + 1)) = v &&& 0x01#8 := by
  apply byte_ext <;> rw [BitVec.getElem_append] <;> simp

theorem wdts_readBack (v : Byte) : (0b10000#5 ++ v.extractLsb' 0 3 : BitVec (5 + 3)) = (v &&& 0x07#8) ||| 0x80#8 := by
  apply byte_ext <;> rw [BitVec.getElem_append] <;> simp

theorem tbhp_readBack (v : Byte) : (0#5 ++ v.extractLsb' 0 3 : BitVec (5 + 3)) = v &&& 0x07#8 := by
  apply byte_ext <;> rw [BitVec.getElem_append] <;> simp

theorem pcl_readBack (page : BitVec 3) (v : Byte) : (page ++ v : BitVec (3 + 8)).extractLsb' 0 8 = v :=
  BitVec.extractLsb'_append_eq_right

theorem withReservedB_masked (v unknown : Byte) :
    withReservedB (v &&& portBMask) unknown &&& 0x9C#8 = v &&& 0x9C#8 := by
  apply byte_ext <;> simp [withReservedB, portBMask]

/-- The bits that a write of MISC stores are the new ones, whatever happens to the FIFOs. -/
theorem Usb.writeMisc_misc (u : Usb) (v : Byte) : (u.writeMisc v).misc = Misc.ofByte v := by
  have hmap : ∀ (w : Usb) k g, (w.mapFifo k g).misc = w.misc := fun w k g => by
    rcases k with _ | _ | _ <;> rfl
  unfold Usb.writeMisc
  dsimp only
  split
  · exact hmap ..
  · rfl

@[simp] theorem State.writeMisc_draws (s : State) (v : Byte) : (s.writeMisc v).draws = s.draws := by
  unfold State.writeMisc
  dsimp only
  split <;> rfl

@[simp] theorem State.writeMisc_bits (s : State) (v : Byte) : (s.writeMisc v).usb.misc = Misc.ofByte v := by
  unfold State.writeMisc
  dsimp only
  split <;> exact s.usb.writeMisc_misc v

/-- A write of MISC with Request = 1 starts the wait if no request was open (62_ports_usb_ps2.md R546). -/
theorem State.writeMisc_waits {s : State} {v : Byte} (hv : v.getLsbD 0 = true) :
    0 < (s.writeMisc v).gap.request.left ↔ (s.usb.misc.request = true → 0 < s.gap.request.left) := by
  have hgap : 0 < fifoGap s.config := by unfold fifoGap; split <;> decide
  unfold State.writeMisc
  cases hr : s.usb.misc.request
  · simp [hv, State.beginRequestGap, startGap, hgap]
  · simp

/-- A FIFO is selected where Sel_pipe1 is 0 (62_ports_usb_ps2.md R541, K17). -/
theorem Misc.selected_isSome (m : Misc) : m.selected.isSome = !m.sel1 := by
  unfold Misc.selected
  split <;> simp_all

/-- When a read of MISC right after a write of `v` falls inside the wait under a request. -/
def MiscWaits (s : State) (v : Byte) : Prop :=
  v.getLsbD 0 = true ∧ v.getLsbD 4 = false ∧ (s.usb.misc.request = true → 0 < s.gap.request.left)

theorem miscWaits_iff (s : State) (v : Byte) :
    MiscWaits s v ↔ ((s.writeMisc v).usb.misc.request && (s.writeMisc v).usb.misc.selected.isSome &&
      decide (0 < (s.writeMisc v).gap.request.left)) = true := by
  simp only [MiscWaits, State.writeMisc_bits, Misc.selected_isSome, Misc.ofByte, Bool.and_eq_true, Bool.not_eq_true',
    decide_eq_true_eq, and_assoc]
  exact and_congr_right fun hv => and_congr_right fun _ => (State.writeMisc_waits hv).symm

theorem misc_readBack_waiting {s : State} {v : Byte} (h : MiscWaits s v) :
    (memRead .misc (storeLoc .misc v s)).1 = s.drawByte 0 := by
  rw [memRead, storeLoc, State.readMisc, if_pos ((miscWaits_iff s v).1 h), State.drawByte, State.writeMisc_draws]
  rfl

theorem misc_readBack {s : State} {v : Byte} (h : ¬MiscWaits s v) :
    (memRead .misc (storeLoc .misc v s)).1 &&& 0xBF#8 = v &&& 0xBF#8 := by
  rw [memRead, storeLoc, State.readMisc, if_neg (mt (miscWaits_iff s v).2 h), State.writeMisc_bits]
  exact Misc.toByte_ofByte v _

/-- Settles O33: register by register; those that store the whole byte or nothing read back by definition. -/
theorem registerReadAfterWrite : Obligations.RegisterReadAfterWrite := by
  intro s v
  exact ⟨pointer_readBack v, pointer_readBack v, bp_readBack v, rfl, pcl_readBack _ v, rfl, rfl, wdts_readBack v,
    s.flags.toByte_write v, Intc.toByte_ofByte v, rfl, Tmrc.toByte_ofByte v, rfl, withReservedB_masked v _, rfl, rfl,
    tbhp_readBack v, rfl, rfl, rfl, rfl, rfl, rfl, misc_readBack, misc_readBack_waiting⟩

end Sys2Proof.Machine
end

section
/-! The frame of every instruction. `State.Untouched i W R s t` lists what an execution of `i` leaves from `s` to `t`
when its destination satisfies `W` and its operand `R`; it composes (`State.Untouched.trans`). An instruction with an
operand is a read of it, work inside the CPU and, if it has a destination, a write of that: each of the three obeys the
frame (`State.Untouched.memRead`, `State.Untouched.work`, `State.Untouched.storeLoc`), and so each operand form does. -/

namespace Sys2Proof.Machine

/-! The frames of the parts of the state that have several registers. -/

/-- The two MISC registers agree but for Len0. -/
def Misc.SameButLen0 (a b : Misc) : Prop := b = { a with len0 := b.len0 }

theorem Misc.SameButLen0.refl (a : Misc) : a.SameButLen0 a := rfl

theorem Misc.SameButLen0.trans {a b c : Misc} (hab : a.SameButLen0 b) (hbc : b.SameButLen0 c) : a.SameButLen0 c := by
  unfold SameButLen0 at *
  rw [hbc, hab]

/-- What of the timer stays when the destination satisfies `W` and the operand `R` (61_timers_wdt.md R453 to R457). -/
structure Timer.Untouched (W R : Loc → Prop) (a b : Timer) : Prop where
  control : ¬W .tmrc → b.ctl = a.ctl ∧ b.pwRun = a.pwRun
  counter : ¬W .tmrh → b.cnt = a.cnt ∧ b.pre = a.pre
  buffer : ¬W .tmrl → ¬R .tmrh → b.buf = a.buf

/-- What of the ports stays when the destination satisfies `W`. -/
structure Ports.Untouched (W : Loc → Prop) (a b : Ports) : Prop where
  pa : ¬W .pa → b.pa = a.pa
  pac : ¬W .pac → b.pac = a.pac
  pb : ¬W .pb → b.pb = a.pb
  pbc : ¬W .pbc → b.pbc = a.pbc
  seen : b.seenA = a.seenA ∧ b.seenB = a.seenB

/-- What of the USB block stays when the destination satisfies `W` and the operand `R`. -/
structure Usb.Untouched (W R : Loc → Prop) (a b : Usb) : Prop where
  usc : ¬W .usc → b.usc = a.usc
  usr : ¬W .usr → b.usr = a.usr ∧ b.pipe = a.pipe
  scc : ¬W .scc → b.scc = a.scc
  pipeCtrl : ¬W .pipeCtrl → b.pipeCtrl = a.pipeCtrl
  awr : ¬W .awr → b.awr = a.awr ∧ b.devAddr = a.devAddr
  stall : ¬W .stall → b.stall = a.stall
  sies : ¬W .sies → b.sies = a.sies
  misc : ¬W .misc → a.misc.SameButLen0 b.misc
  len0 : ¬W .misc → ¬R (.fifo .ep0) → b.misc.len0 = a.misc.len0
  fifo : ∀ k, ¬W .misc → ¬R (.fifo k) → b.fifo k = a.fifo k
  busy : ∀ k, (b.fifo k).busy = (a.fifo k).busy

section
variable {W R : Loc → Prop}

theorem Timer.Untouched.refl (a : Timer) : a.Untouched W R a :=
  ⟨fun _ => ⟨rfl, rfl⟩, fun _ => ⟨rfl, rfl⟩, fun _ _ => rfl⟩

theorem Timer.Untouched.trans {a b c : Timer} (h : a.Untouched W R b) (k : b.Untouched W R c) : a.Untouched W R c where
  control w := ⟨(k.control w).1.trans (h.control w).1, (k.control w).2.trans (h.control w).2⟩
  counter w := ⟨(k.counter w).1.trans (h.counter w).1, (k.counter w).2.trans (h.counter w).2⟩
  buffer w r := (k.buffer w r).trans (h.buffer w r)

theorem Ports.Untouched.refl (a : Ports) : a.Untouched W a :=
  ⟨fun _ => rfl, fun _ => rfl, fun _ => rfl, fun _ => rfl, ⟨rfl, rfl⟩⟩

theorem Ports.Untouched.trans {a b c : Ports} (h : a.Untouched W b) (k : b.Untouched W c) : a.Untouched W c where
  pa w := (k.pa w).trans (h.pa w)
  pac w := (k.pac w).trans (h.pac w)
  pb w := (k.pb w).trans (h.pb w)
  pbc w := (k.pbc w).trans (h.pbc w)
  seen := ⟨k.seen.1.trans h.seen.1, k.seen.2.trans h.seen.2⟩

theorem Usb.Untouched.refl (a : Usb) : a.Untouched W R a where
  usc _ := rfl
  usr _ := ⟨rfl, rfl⟩
  scc _ := rfl
  pipeCtrl _ := rfl
  awr _ := ⟨rfl, rfl⟩
  stall _ := rfl
  sies _ := rfl
  misc _ := .refl _
  len0 _ _ := rfl
  fifo _ _ _ := rfl
  busy _ := rfl

theorem Usb.Untouched.trans {a b c : Usb} (h : a.Untouched W R b) (k : b.Untouched W R c) : a.Untouched W R c where
  usc w := (k.usc w).trans (h.usc w)
  usr w := ⟨(k.usr w).1.trans (h.usr w).1, (k.usr w).2.trans (h.usr w).2⟩
  scc w := (k.scc w).trans (h.scc w)
  pipeCtrl w := (k.pipeCtrl w).trans (h.pipeCtrl w)
  awr w := ⟨(k.awr w).1.trans (h.awr w).1, (k.awr w).2.trans (h.awr w).2⟩
  stall w := (k.stall w).trans (h.stall w)
  sies w := (k.sies w).trans (h.sies w)
  misc w := (h.misc w).trans (k.misc w)
  len0 w r := (k.len0 w r).trans (h.len0 w r)
  fifo e w r := (k.fifo e w r).trans (h.fifo e w r)
  busy e := (k.busy e).trans (h.busy e)

/-! What the operations on the USB block leave. -/

/-- Of an endpoint whose register is the operand, or at a write of MISC, the FIFO may be replaced by one with the same
use of the pipe. -/
theorem Usb.setFifo_untouched {k : Endpoint} (hk : W .misc ∨ R (.fifo k)) (u : Usb) {f : Fifo}
    (hf : f.busy = (u.fifo k).busy) : u.Untouched W R (u.setFifo k f) := by
  have hother : ∀ e, e ≠ k → (u.setFifo k f).fifo e = u.fifo e := fun e he => fifo_setFifo_ne he u f
  have hfifo : ∀ e, ¬W .misc → ¬R (.fifo e) → (u.setFifo k f).fifo e = u.fifo e := fun e hw hr =>
    hother e fun he => hk.elim hw (he ▸ hr)
  have hbusy : ∀ e, ((u.setFifo k f).fifo e).busy = (u.fifo e).busy := fun e => by
    by_cases he : e = k
    · rw [he, fifo_setFifo_same, hf]
    · rw [hother e he]
  cases k <;> exact { Usb.Untouched.refl u with fifo := hfifo, busy := hbusy }

theorem Usb.readAction_untouched {k : Endpoint} (hR : R (.fifo k)) (u : Usb) : u.Untouched W R (u.readAction k) := by
  cases k
  · exact { Usb.Untouched.refl u with misc := fun _ => rfl, len0 := fun _ h => absurd hR h }
  · exact .refl u

theorem Usb.mapFifo_untouched (hW : W .misc) (u : Usb) (k : Option Endpoint) {g : Fifo → Fifo}
    (hg : ∀ f, (g f).busy = f.busy) : u.Untouched W R (u.mapFifo k g) := by
  cases k with
  | none => exact .refl u
  | some k => exact setFifo_untouched (.inl hW) u (hg _)

@[simp] theorem Fifo.busy_commit (f : Fifo) (wasWrite : Bool) : (f.commit wasWrite).busy = f.busy := by
  cases wasWrite <;> rfl

/-- A write of MISC is a commit or none, the new bits, and an emptied FIFO or none (62_ports_usb_ps2.md R541, R545). -/
theorem Usb.writeMisc_untouched (hW : W .misc) (u : Usb) (v : Byte) : u.Untouched W R (u.writeMisc v) := by
  have hbits : ∀ w : Usb, w.Untouched W R { w with misc := Misc.ofByte v } := fun w =>
    { Usb.Untouched.refl w with misc := fun h => absurd hW h, len0 := fun h => absurd hW h }
  have hcommit : u.Untouched W R
      (if u.misc.request && (Misc.ofByte v).request && (u.misc.tx != (Misc.ofByte v).tx) then
        u.mapFifo u.misc.selected (·.commit u.misc.tx) else u) := by
    split
    · exact mapFifo_untouched hW u _ fun f => f.busy_commit _
    · exact .refl u
  unfold Usb.writeMisc
  dsimp only
  split
  · exact (hcommit.trans (hbits _)).trans (mapFifo_untouched hW _ _ fun _ => rfl)
  · exact hcommit.trans (hbits _)

end

/-! The frame of the whole state. -/

/-- What an execution of `i` from `s` to `t` leaves when its destination satisfies `W` and its operand `R`; RAM byte by
byte. -/
structure State.Untouched (i : Instr) (W R : Loc → Prop) (s t : State) : Prop where
  acc : i.writesAcc = false → ¬W .acc → t.acc = s.acc
  mp0 : ¬W .mp0 → t.mp0 = s.mp0
  mp1 : ¬W .mp1 → t.mp1 = s.mp1
  bp : ¬W .bp → t.bp = s.bp
  tblp : ¬W .tblp → t.tblp = s.tblp
  tbhp : ¬W .tbhp → t.tbhp = s.tbhp
  tblh : (∀ m, i ≠ .tabrdcM m) → (∀ m, i ≠ .tabrdlM m) → t.tblh = s.tblh
  stk : (∀ a, i ≠ .call a) → i ≠ .ret → (∀ x, i ≠ .retAx x) → i ≠ .reti → t.stk = s.stk
  intc : ¬W .intc → i ≠ .reti → t.intc = s.intc
  ram : s.ram.wf = true →
    t.ram.wf = true ∧ ∀ a, (∀ b, W (.ram b) → a ≠ b.toNat) → t.ram.read a = s.ram.read a
  timer : s.timer.Untouched W R t.timer
  ratio : ¬W .wdts → t.wdt.ws = s.wdt.ws
  watchdog : i.flagEffect ≠ .power → t.wdt.cnt = s.wdt.cnt ∧ t.wdt.pre = s.wdt.pre
  ports : s.ports.Untouched W t.ports
  usb : s.usb.Untouched W R t.usb
  halt : i ≠ .halt → t.halt = s.halt
  env : t.env = s.env
  chip : s.sameChip t

namespace State.Untouched
variable {i : Instr} {W R : Loc → Prop} {s t u : State} {l : Loc} {m : DataAddr}

theorem refl (s : State) : s.Untouched i W R s where
  acc _ _ := rfl
  mp0 _ := rfl
  mp1 _ := rfl
  bp _ := rfl
  tblp _ := rfl
  tbhp _ := rfl
  tblh _ _ := rfl
  stk _ _ _ _ := rfl
  intc _ _ := rfl
  ram h := ⟨h, fun _ _ => rfl⟩
  timer := .refl _
  ratio _ := rfl
  watchdog _ := ⟨rfl, rfl⟩
  ports := .refl _
  usb := .refl _
  halt _ := rfl
  env := rfl
  chip := .refl s

theorem trans (h : s.Untouched i W R t) (k : t.Untouched i W R u) : s.Untouched i W R u where
  acc a w := (k.acc a w).trans (h.acc a w)
  mp0 w := (k.mp0 w).trans (h.mp0 w)
  mp1 w := (k.mp1 w).trans (h.mp1 w)
  bp w := (k.bp w).trans (h.bp w)
  tblp w := (k.tblp w).trans (h.tblp w)
  tbhp w := (k.tbhp w).trans (h.tbhp w)
  tblh c l := (k.tblh c l).trans (h.tblh c l)
  stk c r x e := (k.stk c r x e).trans (h.stk c r x e)
  intc w e := (k.intc w e).trans (h.intc w e)
  ram wf :=
    have ⟨hwf, ht⟩ := h.ram wf
    have ⟨kwf, ku⟩ := k.ram hwf
    ⟨kwf, fun a w => (ku a w).trans (ht a w)⟩
  timer := h.timer.trans k.timer
  ratio w := (k.ratio w).trans (h.ratio w)
  watchdog p := ⟨(k.watchdog p).1.trans (h.watchdog p).1, (k.watchdog p).2.trans (h.watchdog p).2⟩
  ports := h.ports.trans k.ports
  usb := h.usb.trans k.usb
  halt e := (k.halt e).trans (h.halt e)
  env := k.env.trans h.env
  chip := h.chip.trans k.chip

/-! The reads and the writes of a location. -/

/-- The waits and the counts are the model's own, so the USB block's frame is the state's. -/
theorem of_usb {v : Usb} (h : s.usb.Untouched W R v) (g : Gap) (n : Nat) :
    s.Untouched i W R { s with usb := v, gap := g, draws := n } :=
  { refl s with usb := h }

theorem readFifo {k : Endpoint} (hR : R (.fifo k)) (s : State) : s.Untouched i W R (s.readFifo k).2 := by
  obtain ⟨v, g, n, h, hv, -⟩ := s.readFifo_state k
  have hread : s.usb.Untouched W R (s.usb.readAction k) := s.usb.readAction_untouched hR
  rw [h]
  refine of_usb ?_ g _
  rcases hv with rfl | rfl | rfl
  · exact .refl _
  · exact hread
  · exact hread.trans (Usb.setFifo_untouched (.inr hR) _ (by rw [Usb.fifo_readAction]; rfl))

theorem memRead (hR : R l) (s : State) : s.Untouched i W R (memRead l s).2 := by
  by_cases htmrh : l = .tmrh
  · subst htmrh
    have timer : s.timer.Untouched W R s.timer := .refl _
    exact { refl s with timer := { timer with buffer := fun _ h => absurd hR h } }
  · by_cases hfifo : ∃ k, l = .fifo k
    · obtain ⟨k, rfl⟩ := hfifo
      exact readFifo hR s
    · rcases memRead_plain (not_exists.1 hfifo) htmrh s with ⟨h, -⟩ | ⟨h, -⟩
      · exact h.symm ▸ refl s
      · exact h.symm ▸ of_usb (.refl _) _ _

theorem writeFifo {k : Endpoint} (hR : R (.fifo k)) (v : Byte) (s : State) : s.Untouched i W R (s.writeFifo k v) := by
  obtain ⟨w, g, h, hw, -⟩ := s.writeFifo_state k v
  rw [h]
  refine of_usb ?_ g _
  rcases hw with rfl | ⟨rfl, -⟩
  · exact .refl _
  · exact Usb.setFifo_untouched (.inr hR) _ rfl

theorem writeMisc (hW : W .misc) (v : Byte) (s : State) : s.Untouched i W R (s.writeMisc v) := by
  have h : s.usb.Untouched W R (s.usb.writeMisc v) := Usb.writeMisc_untouched hW s.usb v
  unfold State.writeMisc
  dsimp only
  split
  · exact of_usb h _ _
  · exact of_usb h _ _

theorem writeRam {a : DataAddr} (hW : W (.ram a)) (v : Byte) (s : State) :
    s.Untouched i W R (storeLoc (.ram a) v s) :=
  { refl s with
    ram := fun hwf => ⟨Memory.wf_write hwf, fun b hb => by
      rw [storeLoc_ram_loc, Memory.read_write hwf, if_neg (hb a hW)]⟩ }

/-- PC, the flags and the count of cycles are no part of the frame. -/
theorem work (s : State) (a : ProgAddr) (f : Flags) (n : Nat) :
    s.Untouched i W R { s with pc := a, flags := f, cyc := n } :=
  { refl s with }

theorem skipIf (s : State) (c : Bool) : s.Untouched i W R (s.skipIf c) := by
  cases c
  · exact refl s
  · exact work s _ _ _

/-- A write of a location changes what the frame excepts for that location as destination, and as operand at a FIFO
register. -/
theorem storeLoc (hW : W l) (hR : R l) (v : Byte) (s : State) : s.Untouched i W R (storeLoc l v s) := by
  have timer : s.timer.Untouched W R s.timer := .refl _
  have ports : s.ports.Untouched W s.ports := .refl _
  have usb : s.usb.Untouched W R s.usb := .refl _
  cases l
  case null | tblh | reserved | pipe | unmapped => exact refl s
  case pcl | status => exact work s _ _ _
  case ram a => exact writeRam hW v s
  case misc => exact writeMisc hW v s
  case fifo k => exact writeFifo hR v s
  case acc => exact { refl s with acc := fun _ h => absurd hW h }
  case mp0 => exact { refl s with mp0 := fun h => absurd hW h }
  case mp1 => exact { refl s with mp1 := fun h => absurd hW h }
  case bp => exact { refl s with bp := fun h => absurd hW h }
  case tblp => exact { refl s with tblp := fun h => absurd hW h }
  case tbhp => exact { refl s with tbhp := fun h => absurd hW h }
  case wdts => exact { refl s with ratio := fun h => absurd hW h }
  case intc => exact { refl s with intc := fun h => absurd hW h }
  case tmrh => exact { refl s with timer := { timer with counter := fun h => absurd hW h } }
  case tmrl => exact { refl s with timer := { timer with buffer := fun h => absurd hW h } }
  case tmrc => exact { refl s with timer := { timer with control := fun h => absurd hW h } }
  case pa => exact { refl s with ports := { ports with pa := fun h => absurd hW h } }
  case pac => exact { refl s with ports := { ports with pac := fun h => absurd hW h } }
  case pb => exact { refl s with ports := { ports with pb := fun h => absurd hW h } }
  case pbc => exact { refl s with ports := { ports with pbc := fun h => absurd hW h } }
  case usc => exact { refl s with usb := { usb with usc := fun h => absurd hW h } }
  case usr => exact { refl s with usb := { usb with usr := fun h => absurd hW h } }
  case scc => exact { refl s with usb := { usb with scc := fun h => absurd hW h } }
  case pipeCtrl => exact { refl s with usb := { usb with pipeCtrl := fun h => absurd hW h } }
  case awr => exact { refl s with usb := { usb with awr := fun h => absurd hW h } }
  case stall => exact { refl s with usb := { usb with stall := fun h => absurd hW h } }
  case sies => exact { refl s with usb := { usb with sies := fun h => absurd hW h } }

/-! The work inside the CPU. -/

theorem setAcc (h : i.writesAcc = true) (v : Byte) (s : State) : s.Untouched i W R (s.setAcc v) :=
  { refl s with acc := fun hf => absurd (h.symm.trans hf) (by decide) }

theorem toAcc (h : i.writesAcc = true) (r : Byte × Flags) (s : State) : s.Untouched i W R (s.toAcc r) :=
  (setAcc h r.1 s).trans (work ..)

end State.Untouched

/-! The frame of an instruction, by its operand form. -/

/-- The destination of `i` in state `s` is the location `l`. -/
def WritesLoc (i : Instr) (s : State) (l : Loc) : Prop := ∃ m, i.dest = some m ∧ ea m s = l

/-- The operand of `i` in state `s` is the location `l`. -/
def ReadsLoc (i : Instr) (s : State) (l : Loc) : Prop := ∃ m, i.operand = some m ∧ ea m s = l

/-- A destination is the instruction's operand. -/
theorem operand_of_dest {i : Instr} {m : DataAddr} (h : i.dest = some m) : i.operand = some m := by
  cases i <;> cases h <;> rfl

/-- The execution of `i` from `s` to `t` leaves what it neither writes nor reads. -/
abbrev Framed (i : Instr) (s t : State) : Prop := s.Untouched i (WritesLoc i s) (ReadsLoc i s) t

namespace Framed
variable {i : Instr} {s t u : State} {m : DataAddr}

theorem read (ho : i.operand = some m) : Framed i s (memRead (ea m s) s).2 := .memRead ⟨m, ho, rfl⟩ s

/-- What ends in a write of the destination keeps the frame if what went before does. -/
theorem write (h : Framed i s u) (hd : i.dest = some m) (v : Byte) : Framed i s (storeLoc (ea m s) v u) :=
  h.trans (.storeLoc ⟨m, hd, rfl⟩ ⟨m, operand_of_dest hd, rfl⟩ v u)

theorem of_accForm {f : State → Byte → Byte × Flags} (h : accForm m s f = .next t) (ho : i.operand = some m)
    (ha : i.writesAcc = true) : Framed i s t := by
  obtain ⟨-, rfl⟩ := accForm_next.1 h
  exact (read ho).trans (.toAcc ha _ _)

theorem of_immForm {x : Byte} {f : State → Byte → Byte × Flags} (h : immForm x s f = .next t)
    (ha : i.writesAcc = true) : Framed i s t := by
  cases h
  exact .toAcc ha _ s

theorem of_modifyFlagForm {f : State → Byte → Byte × Flags} (h : modifyFlagForm m s f = .next t)
    (hd : i.dest = some m) : Framed i s t := by
  obtain ⟨-, -, -, rfl⟩ := modifyFlagForm_next.1 h
  exact write ((read (operand_of_dest hd)).trans (.work ..)) hd _

theorem of_modifyForm {f : Byte → Byte} (h : modifyForm m s f = .next t) (hd : i.dest = some m) : Framed i s t := by
  obtain ⟨-, -, rfl⟩ := modifyForm_next.1 h
  exact write ((read (operand_of_dest hd)).trans (.work ..)) hd _

theorem of_modifySkipForm {f : Byte → Byte} (h : modifySkipForm m s f = .next t) (hd : i.dest = some m) :
    Framed i s t := by
  obtain ⟨-, -, -, rfl⟩ := modifySkipForm_next.1 h
  exact write (((read (operand_of_dest hd)).trans (.work ..)).trans (.skipIf ..)) hd _

theorem of_storeForm {v : Byte} (h : storeForm m s v = .next t) (hd : i.dest = some m) : Framed i s t := by
  obtain ⟨-, -, rfl⟩ := storeForm_next.1 h
  exact write (.work ..) hd v

/-- A table read writes TBLH before its destination, so it is TABRDC or TABRDL that the frame excepts. -/
theorem of_tableRead {a : ProgAddr} (h : tableRead a m s = .next t) (hd : i.dest = some m)
    (hi : i = .tabrdcM m ∨ i = .tabrdlM m) : Framed i s t := by
  obtain ⟨-, -, rfl⟩ := tableRead_next.1 h
  refine write ?_ hd _
  exact { State.Untouched.refl s with tblh := fun hc hl => (hi.elim (hc m) (hl m)).elim }

theorem of_testSkipForm {test : Byte → Bool} (h : testSkipForm m s test = .next t) (ho : i.operand = some m) :
    Framed i s t := by
  obtain ⟨-, rfl⟩ := testSkipForm_next.1 h
  exact ((read ho).trans (.work ..)).trans (.skipIf ..)

theorem of_accSkipForm {f : Byte → Byte} (h : accSkipForm m s f = .next t) (ho : i.operand = some m)
    (ha : i.writesAcc = true) : Framed i s t := by
  obtain ⟨-, rfl⟩ := accSkipForm_next.1 h
  exact (((read ho).trans (.setAcc ha _ _)).trans (.work ..)).trans (.skipIf ..)

theorem of_call (a : ProgAddr) : Framed (.call a) s (((s.push s.pc).setPc a).addCycles 2) :=
  { State.Untouched.refl s with stk := fun hc => absurd rfl (hc a) }

theorem of_ret (h : returnWith s id = .next t) : Framed .ret s t := by
  obtain ⟨a, rest, -, rfl⟩ := returnWith_next.1 h
  exact { State.Untouched.refl s with stk := fun _ hr => absurd rfl hr }

theorem of_retAx {x : Byte} (h : returnWith s (·.setAcc x) = .next t) : Framed (.retAx x) s t := by
  obtain ⟨a, rest, -, rfl⟩ := returnWith_next.1 h
  exact { State.Untouched.refl s with acc := nofun, stk := fun _ _ hr => absurd rfl (hr x) }

theorem of_reti (h : returnFromInterrupt s = .next t) : Framed .reti s t := by
  obtain ⟨a, rest, -, rfl⟩ := returnWith_next.1 h
  exact { State.Untouched.refl s with stk := fun _ _ _ hr => absurd rfl hr, intc := fun _ hr => absurd rfl hr }

theorem of_preclearWdt {mine other : Preclear} (he : i.flagEffect = .power) :
    Framed i s ((s.preclearWdt mine other).addCycles 1) := by
  unfold State.preclearWdt
  split
  · exact { State.Untouched.refl s with watchdog := fun h => absurd he h }
  · split
    · exact { State.Untouched.refl s with watchdog := fun h => absurd he h }
    · exact { State.Untouched.refl s with watchdog := fun h => absurd he h }

theorem of_halt (h : execHalt s = .next t) : Framed .halt s t := by
  cases h
  unfold State.wdtOnHalt
  split
  · exact { State.Untouched.refl s with watchdog := fun h => absurd rfl h, halt := fun h => absurd rfl h }
  · exact { State.Untouched.refl s with halt := fun h => absurd rfl h }

end Framed

/-- Every instruction keeps the frame, by its operand form. -/
theorem exec_framed {i : Instr} {s t : State} (h : exec i s = .next t) : Framed i s t := by
  cases i
  case addAM | adcAM | subAM | sbcAM | andAM | orAM | xorAM | cplaM | incaM | decaM | rrcaM | rlcaM | movAM | rraM |
      rlaM | swapaM =>
    simp only [exec_addAM, exec_adcAM, exec_subAM, exec_sbcAM, exec_andAM, exec_orAM, exec_xorAM, exec_cplaM,
      exec_incaM, exec_decaM, exec_rrcaM, exec_rlcaM, exec_movAM, exec_rraM, exec_rlaM, exec_swapaM] at h
    exact .of_accForm h rfl rfl
  case addAx | subAx | andAx | orAx | xorAx | movAx =>
    simp only [exec_addAx, exec_subAx, exec_andAx, exec_orAx, exec_xorAx, exec_movAx] at h
    exact .of_immForm h rfl
  case addmAM | adcmAM | submAM | sbcmAM | andmAM | ormAM | xormAM | cplM | incM | decM | rrcM | rlcM | daaM =>
    simp only [exec_addmAM, exec_adcmAM, exec_submAM, exec_sbcmAM, exec_andmAM, exec_ormAM, exec_xormAM, exec_cplM,
      exec_incM, exec_decM, exec_rrcM, exec_rlcM, exec_daaM] at h
    exact .of_modifyFlagForm h rfl
  case rrM | rlM | swapM | setBit | clrBit =>
    simp only [exec_rrM, exec_rlM, exec_swapM, exec_setBit, exec_clrBit] at h
    exact .of_modifyForm h rfl
  case sizM | sdzM =>
    simp only [exec_sizM, exec_sdzM] at h
    exact .of_modifySkipForm h rfl
  case movMA | clrM | setM =>
    simp only [exec_movMA, exec_clrM, exec_setM] at h
    exact .of_storeForm h rfl
  case tabrdcM =>
    rw [exec_tabrdcM] at h
    exact .of_tableRead h rfl (.inl rfl)
  case tabrdlM =>
    rw [exec_tabrdlM] at h
    exact .of_tableRead h rfl (.inr rfl)
  case szM | szBit | snzBit =>
    simp only [exec_szM, exec_szBit, exec_snzBit] at h
    exact .of_testSkipForm h rfl
  case szaM | sizaM | sdzaM =>
    simp only [exec_szaM, exec_sizaM, exec_sdzaM] at h
    exact .of_accSkipForm h rfl rfl
  case ret => exact .of_ret h
  case retAx => exact .of_retAx h
  case reti => exact .of_reti h
  case nop | jmp => cases h; exact .work ..
  case call a => cases h; exact .of_call a
  case clrWdt | clrWdt1 | clrWdt2 => cases h; exact .of_preclearWdt rfl
  case halt => exact .of_halt h

/-- Settles O36: the RAM and the chip of the frame. -/
theorem memoryFrame : Obligations.MemoryFrame := by
  intro i s t hwf h
  have hframe := exec_framed h
  obtain ⟨-, hram⟩ := hframe.ram hwf
  refine ⟨fun a ha => hram a fun b ⟨m, hd, hea⟩ => ha m b hd hea, fun a => ?_⟩
  rw [hframe.chip.1]

/-- Settles O37: the frame, register by register. -/
theorem registerFrame : Obligations.RegisterFrame := by
  intro i s t h
  have k := exec_framed h
  exact ⟨k.acc, k.mp0, k.mp1, k.bp, k.tblp, k.tbhp, k.tblh, k.stk, k.intc, k.timer.control, k.timer.counter,
    k.timer.buffer, k.ratio, k.watchdog, k.ports.pa, k.ports.pac, k.ports.pb, k.ports.pbc, k.ports.seen.1,
    k.ports.seen.2, k.usb.usc, k.usb.usr, k.usb.scc, k.usb.pipeCtrl, k.usb.awr, k.usb.stall, k.usb.sies,
    fun hw => ⟨k.usb.misc hw, k.usb.len0 hw⟩, k.usb.fifo, k.usb.busy, k.halt, k.chip.2, k.env⟩

end Sys2Proof.Machine
end

section
/-! The decoder by formats (30_encoding.md R148, R155). A word's number says its format (`decode_of_F0` to
`decode_of_FB`, the five disjoint cases of R155), and each format's own table says the rest. The fields of a word are
read and joined through their numbers (`toNat_append_fields`, `toNat_field`, `toNat_bit`). -/

namespace Sys2Proof

/-- Two fields side by side, as a number: `base + m` of 30_encoding.md R150 to R153. -/
theorem toNat_append_fields {n k : Nat} (hi : BitVec n) (lo : BitVec k) :
    (hi ++ lo).toNat = hi.toNat * 2 ^ k + lo.toNat := by
  rw [BitVec.toNat_append, ← Nat.shiftLeft_add_eq_or_of_lt lo.isLt, Nat.shiftLeft_eq]

/-- The field of `k` bits that starts at bit `j`, as a number. -/
theorem toNat_field {n : Nat} (w : BitVec n) (j k : Nat) : (w.extractLsb' j k).toNat = w.toNat / 2 ^ j % 2 ^ k := by
  rw [BitVec.extractLsb'_toNat, Nat.shiftRight_eq_div_pow]

theorem toNat_bit {n : Nat} (w : BitVec n) (j : Nat) : (BitVec.ofBool (w.getLsbD j)).toNat = w.toNat / 2 ^ j % 2 := by
  rw [BitVec.toNat_ofBool, BitVec.getLsbD, Nat.toNat_testBit]

theorem field_eq_iff {n : Nat} (w : BitVec n) (j k : Nat) (v : BitVec k) :
    w.extractLsb' j k = v ↔ w.toNat / 2 ^ j % 2 ^ k = v.toNat := by
  rw [← BitVec.toNat_inj, toNat_field]

/-! ### The five cases of R155 -/

section
variable {w : CodeWord} (times : ClrWdtTimes)

theorem decode_of_FB (h : 0x3000 ≤ w.toNat) :
    decode times w = .ok (decodeFB (w.extractLsb' 10 2) (w.extractLsb' 7 3) (w.extractLsb' 0 7)) :=
  if_pos ((field_eq_iff ..).2 (show w.toNat / 4096 % 4 = 3 by omega))

theorem decode_of_FA (h : 0x2000 ≤ w.toNat ∧ w.toNat < 0x3000) :
    decode times w = .ok (decodeFA (w.getLsbD 11) (w.extractLsb' 0 11)) := by
  have hFB : ¬w.extractLsb' 12 2 = 0b11#2 := (field_eq_iff ..).not.2 (show ¬w.toNat / 4096 % 4 = 3 by omega)
  have hFA : w.extractLsb' 12 2 = 0b10#2 := (field_eq_iff ..).2 (show w.toNat / 4096 % 4 = 2 by omega)
  rw [decode, if_neg hFB, if_pos hFA]

/-- Below 2000H bit 13 is 0, so the word is neither of format FB nor of FA. -/
theorem decode_of_lt (h : w.toNat < 0x2000) :
    decode times w =
      if w.extractLsb' 11 3 = 0b001#3 then decodeFI w (w.extractLsb' 8 3) (w.extractLsb' 0 8)
      else if w.toNat < 0x80 then decodeF0 times w
      else decodeFM w (w.extractLsb' 7 7) (w.extractLsb' 0 7) := by
  have hFB : ¬w.extractLsb' 12 2 = 0b11#2 := (field_eq_iff ..).not.2 (show ¬w.toNat / 4096 % 4 = 3 by omega)
  have hFA : ¬w.extractLsb' 12 2 = 0b10#2 := (field_eq_iff ..).not.2 (show ¬w.toNat / 4096 % 4 = 2 by omega)
  rw [decode, if_neg hFB, if_neg hFA]

theorem decode_of_FI (h : 0x0800 ≤ w.toNat ∧ w.toNat < 0x1000) :
    decode times w = decodeFI w (w.extractLsb' 8 3) (w.extractLsb' 0 8) := by
  have hFI : w.extractLsb' 11 3 = 0b001#3 := (field_eq_iff ..).2 (show w.toNat / 2048 % 8 = 1 by omega)
  rw [decode_of_lt times (by omega), if_pos hFI]

theorem decode_of_F0 (h : w.toNat < 0x0080) : decode times w = decodeF0 times w := by
  have hFI : ¬w.extractLsb' 11 3 = 0b001#3 := (field_eq_iff ..).not.2 (show ¬w.toNat / 2048 % 8 = 1 by omega)
  rw [decode_of_lt times (by omega), if_neg hFI, if_pos h]

theorem decode_of_FM (h : (0x0080 ≤ w.toNat ∧ w.toNat < 0x0800) ∨ (0x1000 ≤ w.toNat ∧ w.toNat < 0x2000)) :
    decode times w = decodeFM w (w.extractLsb' 7 7) (w.extractLsb' 0 7) := by
  have hFI : ¬w.extractLsb' 11 3 = 0b001#3 := (field_eq_iff ..).not.2 (show ¬w.toNat / 2048 % 8 = 1 by omega)
  have hF0 : ¬w.toNat < 0x80 := by omega
  rw [decode_of_lt times (by omega), if_neg hFI, if_neg hF0]

end

/-- The formats share out the words. -/
theorem format_of_word (w : CodeWord) :
    w.toNat < 0x0080 ∨ ((0x0080 ≤ w.toNat ∧ w.toNat < 0x0800) ∨ (0x1000 ≤ w.toNat ∧ w.toNat < 0x2000)) ∨
      (0x0800 ≤ w.toNat ∧ w.toNat < 0x1000) ∨ (0x2000 ≤ w.toNat ∧ w.toNat < 0x3000) ∨ 0x3000 ≤ w.toNat := by
  omega

end Sys2Proof
end

section
/-! Decoding after encoding. A word written as its fields decodes by its format's table at those fields; the base of
each instruction then picks the instruction's own row. -/

namespace Sys2Proof

section
variable (times : ClrWdtTimes)

theorem decode_FM_append (b : BitVec 7) (m : DataAddr)
    (hb : (1 ≤ b.toNat ∧ b.toNat < 16) ∨ (32 ≤ b.toNat ∧ b.toNat < 64)) :
    decode times (b ++ m) = decodeFM (b ++ m) b m := by
  have hw : (b ++ m : CodeWord).toNat = b.toNat * 128 + m.toNat := toNat_append_fields b m
  have hm : m.toNat < 128 := m.isLt
  have hbase : (b ++ m).extractLsb' 7 7 = b := BitVec.extractLsb'_append_eq_left
  have haddr : (b ++ m).extractLsb' 0 7 = m := BitVec.extractLsb'_append_eq_right
  rw [decode_of_FM times (by omega), hbase, haddr]

theorem decode_FI_append (b : BitVec 6) (x : Byte) (hb : 8 ≤ b.toNat ∧ b.toNat < 16) :
    decode times (b ++ x) = decodeFI (b ++ x) (b.extractLsb' 0 3) x := by
  have hw : (b ++ x : CodeWord).toNat = b.toNat * 256 + x.toNat := toNat_append_fields b x
  have hx : x.toNat < 256 := x.isLt
  have hop : (b ++ x).extractLsb' 8 3 = b.extractLsb' 0 3 := BitVec.extractLsb'_append_eq_of_le (Nat.le_refl 8)
  have himm : (b ++ x).extractLsb' 0 8 = x := BitVec.extractLsb'_append_eq_right
  rw [decode_of_FI times (by omega), hop, himm]

theorem decode_FA_append (b : BitVec 3) (a : ProgAddr) (hb : 4 ≤ b.toNat ∧ b.toNat < 6) :
    decode times (b ++ a) = .ok (decodeFA (b.getLsbD 0) a) := by
  have hw : (b ++ a : CodeWord).toNat = b.toNat * 2048 + a.toNat := toNat_append_fields b a
  have ha : a.toNat < 2048 := a.isLt
  have hjump : (b ++ a).getLsbD 11 = b.getLsbD 0 := BitVec.getLsbD_append
  have haddr : (b ++ a).extractLsb' 0 11 = a := BitVec.extractLsb'_append_eq_right
  rw [decode_of_FA times (by omega), hjump, haddr]

theorem decode_FB_append (b : BitVec 4) (i : BitVec 3) (m : DataAddr) (hb : 12 ≤ b.toNat) :
    decode times (b ++ i ++ m) = .ok (decodeFB (b.extractLsb' 0 2) i m) := by
  have hw : (b ++ i ++ m : CodeWord).toNat = (b ++ i).toNat * 128 + m.toNat := toNat_append_fields (b ++ i) m
  have hbi : (b ++ i).toNat = b.toNat * 8 + i.toNat := toNat_append_fields b i
  have hff : (b ++ i ++ m).extractLsb' 10 2 = b.extractLsb' 0 2 := by
    rw [BitVec.extractLsb'_append_eq_of_le (by decide), BitVec.extractLsb'_append_eq_of_le (by decide)]
  have hbit : (b ++ i ++ m).extractLsb' 7 3 = i := by
    rw [BitVec.extractLsb'_append_eq_of_le (by decide)]
    exact BitVec.extractLsb'_append_eq_right
  have haddr : (b ++ i ++ m).extractLsb' 0 7 = m := BitVec.extractLsb'_append_eq_right
  rw [decode_of_FB times (by omega), hff, hbit, haddr]

end

/-- Format by format, the fields of the word come back and select the instruction's row. -/
theorem decode_encode {times : ClrWdtTimes} {i : Instr} (hwf : wellFormed times i = true) :
    decode times (encode i) = .ok i := by
  cases i
  case nop | halt | ret | reti | clrWdt2 => rfl
  case clrWdt =>
    cases times with
    | one => rfl
    | two => cases hwf
  case clrWdt1 =>
    cases times with
    | one => cases hwf
    | two => rfl
  case retAx x | subAx x | addAx x | xorAx x | orAx x | andAx x | movAx x =>
    exact decode_FI_append times _ x (by decide)
  case call a | jmp a => exact decode_FA_append times _ a (by decide)
  case setBit m i | clrBit m i | snzBit m i | szBit m i => exact decode_FB_append times _ i m (by decide)
  -- every instruction left is of format FM (R150)
  all_goals exact decode_FM_append times _ _ (by decide)

/-- Settles O1. -/
theorem decodeOfEncode : Obligations.DecodeOfEncode := fun _ _ => decode_encode

theorem decode_of_encode_eq {times : ClrWdtTimes} {i : Instr} {w : CodeWord} (hw : encode i = w)
    (hwf : wellFormed times i = true) : decode times w = .ok i :=
  hw ▸ decode_encode hwf

/-- Settles O4: each word is the word of the instruction beside it, so `decode_encode` reads it. -/
theorem sampleWordsDecode : Obligations.SampleWordsDecode :=
  ⟨decode_of_encode_eq rfl rfl, decode_of_encode_eq rfl rfl, decode_of_encode_eq rfl rfl, decode_of_encode_eq rfl rfl,
    decode_of_encode_eq rfl rfl, decode_of_encode_eq rfl rfl, decode_of_encode_eq rfl rfl, decode_of_encode_eq rfl rfl,
    decode_of_encode_eq rfl rfl, decode_of_encode_eq rfl rfl⟩

end Sys2Proof
end

section
/-! Encoding after decoding (30_encoding.md R154: a word decodes to at most one instruction). The row of a format's
table that a word matches names the base that `encode` puts back before the same operands, and the fields of a word
joined again are the word. -/

namespace Sys2Proof

section
variable {times : ClrWdtTimes} {w : CodeWord} {i : Instr}

theorem encode_of_decodeF0 (h : decodeF0 times w = .ok i) : encode i = w := by
  unfold decodeF0 at h
  split at h
  case h_2 hw => cases times <;> cases h <;> exact BitVec.eq_of_toNat_eq hw.symm
  all_goals cases h
  all_goals
    rename_i hw
    exact BitVec.eq_of_toNat_eq hw.symm

theorem encode_of_decodeFM {b : BitVec 7} {m : DataAddr} (h : decodeFM w b m = .ok i) : encode i = b ++ m := by
  unfold decodeFM at h
  split at h <;> cases h
  all_goals
    rename_i hb
    exact congrArg (· ++ m) (BitVec.eq_of_toNat_eq hb.symm)

theorem encode_of_decodeFI {op : BitVec 3} {x : Byte} (h : decodeFI w op x = .ok i) :
    encode i = 0b001#3 ++ op ++ x := by
  unfold decodeFI at h
  split at h <;> cases h
  all_goals
    rename_i hop
    refine congrArg (fun b : BitVec 6 => b ++ x) (a₂ := 0b001#3 ++ op) (BitVec.eq_of_toNat_eq ?_)
    rw [BitVec.toNat_append, hop]
    rfl

theorem encode_decodeFA (jump : Bool) (a : ProgAddr) :
    encode (decodeFA jump a) = 0b10#2 ++ BitVec.ofBool jump ++ a := by
  cases jump <;> rfl

theorem encode_decodeFB (ff : BitVec 2) (i : BitVec 3) (m : DataAddr) :
    encode (decodeFB ff i m) = 0b11#2 ++ ff ++ i ++ m := by
  have hff : ff = 0b00#2 ∨ ff = 0b01#2 ∨ ff = 0b10#2 ∨ ff = 0b11#2 := by revert ff; decide
  rcases hff with rfl | rfl | rfl | rfl <;> rfl

/-- The left inverse of `encode` on words that decode. -/
theorem encode_of_decode (h : decode times w = .ok i) : encode i = w := by
  rcases format_of_word w with hF0 | hFM | hFI | hFA | hFB
  · rw [decode_of_F0 times hF0] at h
    exact encode_of_decodeF0 h
  · rw [decode_of_FM times hFM] at h
    have hjoin : w.extractLsb' 7 7 ++ w.extractLsb' 0 7 = w.extractLsb' 0 14 :=
      BitVec.extractLsb'_append_extractLsb'_eq_extractLsb' rfl
    rw [encode_of_decodeFM h, hjoin, BitVec.extractLsb'_eq_self]
  · rw [decode_of_FI times hFI] at h
    rw [encode_of_decodeFI h]
    apply BitVec.eq_of_toNat_eq
    simp only [toNat_append_fields, toNat_field, BitVec.reduceToNat]
    omega
  · rw [decode_of_FA times hFA] at h
    cases h
    rw [encode_decodeFA]
    apply BitVec.eq_of_toNat_eq
    simp only [toNat_append_fields, toNat_field, toNat_bit, BitVec.reduceToNat]
    omega
  · rw [decode_of_FB times hFB] at h
    cases h
    rw [encode_decodeFB]
    apply BitVec.eq_of_toNat_eq
    simp only [toNat_append_fields, toNat_field, BitVec.reduceToNat]
    omega

/-- The decoder gives no mnemonic that `CLRWDT_TIMES` makes inactive (30_encoding.md R149). -/
theorem wellFormed_of_decode (h : decode times w = .ok i) : wellFormed times i = true := by
  by_contra hwf
  have hw : encode i = w := encode_of_decode h
  subst hw
  unfold wellFormed at hwf
  split at hwf
  · cases h
  · cases h
  · exact hwf rfl

/-- The decoder over bytes reads back the two bytes of a word (20_memory.md R112). -/
theorem decodeBytes_wordBytes (h : decode times w = .ok i) :
    decodeBytes times (wordBytes w.toNat) = .ok (i, []) := by
  have hw : w.toNat < 0x4000 := w.isLt
  have htop : (BitVec.ofNat 8 (w.toNat / 256)).extractLsb' 6 2 = 0b00#2 := by
    rw [field_eq_iff, BitVec.toNat_ofNat]
    simp only [BitVec.reduceToNat]
    omega
  have hjoin : (BitVec.ofNat 8 (w.toNat / 256) ++ BitVec.ofNat 8 w.toNat).extractLsb' 0 14 = w := by
    rw [field_eq_iff, toNat_append_fields, BitVec.toNat_ofNat, BitVec.toNat_ofNat]
    omega
  simp only [wordBytes, decodeBytes, if_pos htop, hjoin, h]

end

/-- Settles O2. -/
theorem encodeOfDecode : Obligations.EncodeOfDecode := fun _ _ _ =>
  ⟨fun h => ⟨encode_of_decode h, wellFormed_of_decode h⟩, decodeBytes_wordBytes⟩

end Sys2Proof
end

section
/-! The undefined words (30_encoding.md R154) under the default map and under any other, and what a step does on one. -/

namespace Sys2Proof

/-- The words that 30_encoding.md R154 lists. -/
def UndefinedWord (n : Nat) : Prop :=
  (0x0006 ≤ n ∧ n ≤ 0x007F) ∨ (0x0780 ≤ n ∧ n ≤ 0x08FF) ∨ (0x1C00 ≤ n ∧ n ≤ 0x1CFF) ∨ (0x1E00 ≤ n ∧ n ≤ 0x1E7F)

/-- `r` is an instruction, or the error that names `w` where `undefined` holds. -/
def DefinedUnless (undefined : Prop) (w : CodeWord) (r : Except DecodeError Instr) : Prop :=
  (undefined → r = .error (.undefinedWord w)) ∧ (¬undefined → ∃ i, r = .ok i)

namespace DefinedUnless
variable {p q : Prop} {w : CodeWord} {i : Instr}

theorem ok (h : ¬p) : DefinedUnless p w (.ok i) := ⟨fun hp => absurd hp h, fun _ => ⟨i, rfl⟩⟩

theorem error (h : p) : DefinedUnless p w (.error (.undefinedWord w)) := ⟨fun _ => rfl, fun hp => absurd h hp⟩

theorem congr {r : Except DecodeError Instr} (h : DefinedUnless p w r) (hpq : q ↔ p) : DefinedUnless q w r :=
  (propext hpq) ▸ h

end DefinedUnless

section
variable (times : ClrWdtTimes) (w : CodeWord)

theorem decodeF0_defined : DefinedUnless (6 ≤ w.toNat) w (decodeF0 times w) := by
  unfold decodeF0
  split
  case h_2 hw => cases times <;> exact .ok (by omega)
  case h_7 =>
    simp only [imp_false] at *
    exact .error (by omega)
  all_goals exact .ok (by omega)

theorem decodeFM_defined (b : BitVec 7) (m : DataAddr) :
    DefinedUnless (b.toNat = 0 ∨ (15 ≤ b.toNat ∧ b.toNat ≤ 31) ∨ b.toNat = 56 ∨ b.toNat = 57 ∨ b.toNat = 60 ∨
      64 ≤ b.toNat) w (decodeFM w b m) := by
  unfold decodeFM
  split
  case h_44 =>
    simp only [imp_false] at *
    exact .error (by omega)
  all_goals exact .ok (by omega)

theorem decodeFI_defined (op : BitVec 3) (x : Byte) : DefinedUnless (op.toNat = 0) w (decodeFI w op x) := by
  unfold decodeFI
  split
  case h_8 =>
    simp only [imp_false] at *
    exact .error (by omega)
  all_goals exact .ok (by omega)

/-- The words with no instruction are those that R154 lists, and each is named. -/
theorem decode_defined : DefinedUnless (UndefinedWord w.toNat) w (decode times w) := by
  unfold UndefinedWord
  rcases format_of_word w with hF0 | hFM | hFI | hFA | hFB
  · rw [decode_of_F0 times hF0]
    exact (decodeF0_defined times w).congr (by omega)
  · rw [decode_of_FM times hFM]
    exact (decodeFM_defined w _ _).congr (by rw [toNat_field]; omega)
  · rw [decode_of_FI times hFI]
    exact (decodeFI_defined w _ _).congr (by rw [toNat_field]; omega)
  · rw [decode_of_FA times hFA]
    exact .ok (by omega)
  · rw [decode_of_FB times hFB]
    exact .ok (by omega)

end

/-! ### A map of a configuration -/

section
variable {c : Config} {w : CodeWord}

theorem Config.decode_default (h : c.encoding = []) : c.decode w = Sys2Proof.decode c.clrWdtTimes w := by
  rw [Config.decode, h, lookupWord]

theorem Config.decode_listed_first {i : Instr} {rest : List (CodeWord × Option Instr)}
    (h : c.encoding = (w, some i) :: rest) : c.decode w = .ok i := by
  rw [Config.decode, h, lookupWord, if_pos rfl]

theorem Config.decode_undefined_first {rest : List (CodeWord × Option Instr)}
    (h : c.encoding = (w, none) :: rest) : c.decode w = .error (.undefinedWord w) := by
  rw [Config.decode, h, lookupWord, if_pos rfl]

end

namespace Machine

/-- A step that comes to fetch a word with no meaning refuses, naming the word (30_encoding.md R154). -/
theorem step_refuses_undefined {s t : State} {e : DecodeError} (hb : boundary s = .execute t)
    (he : t.config.decode (t.romWord t.pc) = .error e) : step s = .refused (.undefinedWord (t.romWord t.pc)) := by
  have hf : fetch t = .error (.undefinedWord (t.romWord t.pc)) := by rw [fetch, he]
  rw [step, hb]
  dsimp only
  rw [runInstruction, hf]

end Machine

/-- Settles O3: R154's list for the default map, and the refusal of the step for any map. -/
theorem undefinedWordsRefused : Obligations.UndefinedWordsRefused := by
  refine ⟨fun times w => decode_defined times w, fun s t hb hdefault hundef => ?_,
    fun s t e hb he => Machine.step_refuses_undefined hb he,
    fun c w rest => ⟨fun i => Config.decode_listed_first, Config.decode_undefined_first⟩⟩
  have herror := (decode_defined t.config.clrWdtTimes (t.romWord t.pc)).1 hundef
  exact Machine.step_refuses_undefined hb ((Config.decode_default hdefault).trans herror)

end Sys2Proof
end

section
/-! The forms of the instructions that set flags, read as the relations of the statements: `Accumulates.of_accForm` for
`OP A,[m]` and `Modifies.of_modifyFlagForm` for the read-modify-write form (20_memory.md R109), each with its refusals
(10_state.md R38, R49; 40_arithmetic.md R213), and the immediate form as its whole next state. An instruction is then
settled by what its operation makes of the flags, ACC and the byte read. -/

namespace Sys2Proof.Machine

section
variable {i : Instr} {m : DataAddr} {s : State}

theorem withLoc_unmapped {k : Loc → Out} (h : ea m s = .unmapped) : withLoc m s k = .refused .bank1Unimplemented :=
  if_pos h

theorem Loc.accepts_of_ne {l : Loc} (hu : l ≠ .unmapped) (hw : l ≠ .wdts) (v : Byte) : l.accepts v = true := by
  unfold Loc.accepts
  split
  · exact absurd rfl hu
  · exact absurd rfl hw
  · rfl

/-- WDTS takes a byte only with bits 7 to 3 at 10000 (10_state.md R38, K7). -/
theorem Loc.accepts_wdts {v : Byte} : Loc.wdts.accepts v = true ↔ v.extractLsb' 3 5 = 0b10000#5 := beq_iff_eq

theorem memWrite_wdts_refused {v : Byte} (h : v.extractLsb' 3 5 ≠ 0b10000#5) (s : State) :
    memWrite .wdts v s = .refused .wdtsReserved :=
  if_neg (mt Loc.accepts_wdts.1 h)

/-- An instruction of the form `OP A,[m]` does to ACC and the flags what its operation says. -/
theorem Accumulates.of_accForm {op : Flags → Byte → Byte → Byte × Flags} {R : State → Byte → Byte → Flags → Prop}
    (hexec : ∀ s, exec i s = accForm m s fun t v => op t.flags t.acc v)
    (hop : ∀ s v, R s v (op s.flags s.acc v).1 (op s.flags s.acc v).2) : Accumulates i m R := by
  intro s
  refine ⟨fun hmapped => ⟨_, _, hop s (s.val m), ?_⟩, fun hunmapped => (hexec s).trans (withLoc_unmapped hunmapped)⟩
  rw [hexec, accForm_next]
  refine ⟨hmapped, ?_⟩
  simp only [memRead_flags, memRead_acc]
  rfl

/-- The read-modify-write form away from STATUS and the unimplemented addresses: read, operate on the flags and ACC as
they were, write back. -/
theorem modifyFlagForm_writes {op : Flags → Byte → Byte → Byte × Flags} (hu : ea m s ≠ .unmapped)
    (hs : ea m s ≠ .status) :
    modifyFlagForm m s (fun t v => op t.flags t.acc v) =
      memWrite (ea m s) (op s.flags s.acc (s.val m)).1
        (((s.seen m).setFlags (op s.flags s.acc (s.val m)).2).addCycles 1) := by
  rw [modifyFlagForm, withLoc, if_neg hu, if_neg hs]
  simp only [memRead_flags, memRead_acc]
  rfl

theorem modifyFlagForm_status {f : State → Byte → Byte × Flags} (h : ea m s = .status) :
    modifyFlagForm m s f = .refused .statusDestination := by
  rw [modifyFlagForm, withLoc, h]
  rfl

/-- An instruction of the read-modify-write form does to `[m]` and the flags what its operation says. -/
theorem Modifies.of_modifyFlagForm {op : Flags → Byte → Byte → Byte × Flags}
    {R : State → Byte → Byte → Flags → Prop}
    (hexec : ∀ s, exec i s = modifyFlagForm m s fun t v => op t.flags t.acc v)
    (hop : ∀ s v, R s v (op s.flags s.acc v).1 (op s.flags s.acc v).2) : Modifies i m R := by
  intro s
  refine ⟨fun hu hs hw => ⟨_, _, hop s (s.val m), ?elsewhere⟩,
    fun hw => ⟨_, _, hop s (s.val m), fun hv => ?wdts, fun hv => ?wdtsReserved⟩,
    fun hs => (hexec s).trans (modifyFlagForm_status hs), fun hu => (hexec s).trans (withLoc_unmapped hu)⟩
  case elsewhere =>
    rw [hexec, modifyFlagForm_writes hu hs]
    exact memWrite_accepted (Loc.accepts_of_ne hu hw _)
  case wdts =>
    rw [hexec, modifyFlagForm_writes (by simp [hw]) (by simp [hw]), hw]
    exact memWrite_accepted (Loc.accepts_wdts.2 hv)
  case wdtsReserved =>
    rw [hexec, modifyFlagForm_writes (by simp [hw]) (by simp [hw]), hw]
    exact memWrite_wdts_refused hv _

/-- The form `OP A,x`, with its whole next state. -/
theorem immForm_eq (x : Byte) (s : State) (f : State → Byte → Byte × Flags) :
    immForm x s f = .next { s with acc := (f s x).1, flags := (f s x).2, cyc := s.cyc + 1 } := rfl

end

/-! What the operations make of their operands. -/

theorem not8_eq (v : Byte) : not8 v = ~~~v := by
  apply BitVec.eq_of_toNat_eq
  have hv := v.isLt
  simp only [not8, BitVec.toNat_ofNat, BitVec.toNat_not]
  omega

/-- SUB adds the one's complement with carry in 1 (40_arithmetic.md R200). -/
theorem sub8_isSum (f : Flags) (a b : Byte) : IsSum f a (not8 b) true (sub8 f a b).1 (sub8 f a b).2 :=
  not8_eq b ▸ add8_isSum f a (~~~b) true

/-- SBC adds the one's complement with carry in C (40_arithmetic.md R200). -/
theorem sbc8_isSum (f : Flags) (a b : Byte) : IsSum f a (not8 b) f.c (sbc8 f a b).1 (sbc8 f a b).2 :=
  not8_eq b ▸ add8_isSum f a (~~~b) f.c

theorem zeroOnly_eq (f : Flags) (r : Byte) : zeroOnly f r = (r, { f with z := decide (r.toNat = 0) }) := by
  have hz : (r == 0#8) = decide (r.toNat = 0) := by
    rw [Bool.eq_iff_iff, beq_iff_eq, decide_eq_true_iff, ← BitVec.toNat_inj]
    rfl
  rw [zeroOnly, Flags.zeroFrom, hz]

/-- The byte `r` and the flags `g` are the decimal adjustment of `a` under the flags `f` (40_arithmetic.md R211). -/
def IsDecimalAdjustment (f : Flags) (a r : Byte) (g : Flags) : Prop :=
  let lo := a.toNat % 16
  let hi := a.toNat / 16
  let ac1 := if 9 < lo then 1 else 0
  (r.toNat % 16 = if 9 < lo ∨ f.ac = true then (lo + 6) % 16 else lo) ∧
    (r.toNat / 16 = if 9 < hi + ac1 ∨ f.c = true then (hi + 6 + ac1) % 16 else (hi + ac1) % 16) ∧
    (g.c = true ↔ 9 < hi + ac1 ∨ f.c = true) ∧
    g = { f with c := g.c }

/-- The digits of a byte put together from two digits. -/
theorem byte_digits {hi lo : Nat} (hhi : hi < 16) (hlo : lo < 16) :
    (BitVec.ofNat 8 (16 * hi + lo)).toNat % 16 = lo ∧ (BitVec.ofNat 8 (16 * hi + lo)).toNat / 16 = hi := by
  rw [BitVec.toNat_ofNat]
  omega

theorem decimalAdjust_isDecimalAdjustment (f : Flags) (a : Byte) :
    IsDecimalAdjustment f a (decimalAdjust f a).1 (decimalAdjust f a).2 := by
  refine ⟨?low, ?high, ?carry, rfl⟩
  case carry => simp [decimalAdjust, Flags.withCarry]
  all_goals simp only [decimalAdjust, Bool.or_eq_true, decide_eq_true_eq]
  case low => exact (byte_digits (by split_ifs <;> omega) (by split_ifs <;> omega)).1
  case high => exact (byte_digits (by split_ifs <;> omega) (by split_ifs <;> omega)).2

end Sys2Proof.Machine
end

section
/-! The arithmetic instructions and the immediate forms (40_arithmetic.md R200 to R214, 41_logic.md R227 to R229). -/

namespace Sys2Proof.Machine

/-- Settles O39: the four instructions are the form `OP A,[m]` of the adder. -/
theorem addAndSubtractToAcc : Obligations.AddAndSubtractToAcc := fun m =>
  ⟨.of_accForm (op := fun f a v => add8 f a v false) (exec_addAM m) fun s v => add8_isSum s.flags s.acc v false,
    .of_accForm (op := fun f a v => add8 f a v f.c) (exec_adcAM m) fun s v => add8_isSum s.flags s.acc v s.flags.c,
    .of_accForm (op := sub8) (exec_subAM m) fun s v => sub8_isSum s.flags s.acc v,
    .of_accForm (op := sbc8) (exec_sbcAM m) fun s v => sbc8_isSum s.flags s.acc v,
    toNat_append_fields _ m, toNat_append_fields _ m, toNat_append_fields _ m, toNat_append_fields _ m⟩

/-- Settles O40: the four instructions are the read-modify-write form of the adder. -/
theorem addAndSubtractToMemory : Obligations.AddAndSubtractToMemory := fun m =>
  ⟨.of_modifyFlagForm (op := fun f a v => add8 f a v false) (exec_addmAM m) fun s v =>
      add8_isSum s.flags s.acc v false,
    .of_modifyFlagForm (op := fun f a v => add8 f a v f.c) (exec_adcmAM m) fun s v =>
      add8_isSum s.flags s.acc v s.flags.c,
    .of_modifyFlagForm (op := sub8) (exec_submAM m) fun s v => sub8_isSum s.flags s.acc v,
    .of_modifyFlagForm (op := sbc8) (exec_sbcmAM m) fun s v => sbc8_isSum s.flags s.acc v,
    toNat_append_fields _ m, toNat_append_fields _ m, toNat_append_fields _ m, toNat_append_fields _ m⟩

/-- The immediate form of a logic operation: the result goes to ACC and Z takes its zero test. -/
theorem immForm_zeroOnly (op : Byte → Byte → Byte) (x : Byte) (s : State) :
    immForm x s (fun t v => zeroOnly t.flags (op t.acc v)) =
      .next { s with
        acc := op s.acc x
        flags := { s.flags with z := decide ((op s.acc x).toNat = 0) }
        cyc := s.cyc + 1 } := by
  rw [immForm_eq, zeroOnly_eq]

/-- Settles O41: two sums and three logic operations in the immediate form. -/
theorem immediateForms : Obligations.ImmediateForms := fun x s =>
  ⟨⟨_, _, add8_isSum s.flags s.acc x false, (exec_addAx x s).trans (immForm_eq x s _)⟩,
    ⟨_, _, sub8_isSum s.flags s.acc x, (exec_subAx x s).trans (immForm_eq x s _)⟩,
    toNat_append_fields _ x, toNat_append_fields _ x,
    (exec_andAx x s).trans (immForm_zeroOnly (· &&& ·) x s), (exec_orAx x s).trans (immForm_zeroOnly (· ||| ·) x s),
    (exec_xorAx x s).trans (immForm_zeroOnly (· ^^^ ·) x s),
    toNat_append_fields _ x, toNat_append_fields _ x, toNat_append_fields _ x⟩

/-- Settles O42: DAA is the read-modify-write form of the decimal adjustment, which does not look at the byte read. (The
obligation's own name in lower case is the model's function `decimalAdjust`.) -/
theorem decimalAdjustToMemory : Obligations.DecimalAdjust := fun m =>
  ⟨toNat_append_fields _ m,
    .of_modifyFlagForm (op := fun f a _ => decimalAdjust f a) (exec_daaM m) fun s _ =>
      decimalAdjust_isDecimalAdjustment s.flags s.acc⟩

end Sys2Proof.Machine
end

section
/-! Packed BCD (40_arithmetic.md R201, R211). An addition adds the hexadecimal digits with the carry out of bit 3 between
them (`IsSum.digits`), and the adjustment turns each hexadecimal digit of a sum of decimal digits, with its carry, into
the decimal one (`adjusted_low_digit`, `adjusted_high_digit`). -/

namespace Sys2Proof.Machine

/-- An addition, digit by digit. -/
theorem IsSum.digits {f g : Flags} {a b r : Byte} (h : IsSum f a b false r g) :
    r.toNat % 16 = (a.toNat % 16 + b.toNat % 16) % 16 ∧
      r.toNat / 16 = (a.toNat / 16 + b.toNat / 16 + (a.toNat % 16 + b.toNat % 16) / 16) % 16 ∧
      (g.ac = true ↔ 16 ≤ a.toNat % 16 + b.toNat % 16) ∧
      (g.c = true ↔ 16 ≤ a.toNat / 16 + b.toNat / 16 + (a.toNat % 16 + b.toNat % 16) / 16) := by
  obtain ⟨hr, hc, hac, -⟩ := h
  rw [Bool.toNat_false] at hr hc hac
  exact ⟨by omega, by omega, hac, hc.trans (by omega)⟩

/-- Two decimal digits add up to `ones`: the low digit is adjusted exactly when the sum passes 9. -/
theorem adjusted_low_digit {ones : Nat} (h : ones ≤ 18) :
    (if 9 < ones % 16 ∨ 16 ≤ ones then (ones % 16 + 6) % 16 else ones % 16) = ones % 10 := by
  split <;> omega

/-- The carry out of the low decimal digit is the carry out of bit 3, or the one that the adjustment makes. -/
theorem decimal_carry {ones : Nat} (h : ones ≤ 18) : ones / 16 + (if 9 < ones % 16 then 1 else 0) = ones / 10 := by
  split <;> omega

/-- `tens` is the sum of the high digits with the carry out of bit 3, and `ac1` the carry that the adjustment makes. -/
theorem adjusted_carry {tens ac1 : Nat} (h : tens + ac1 ≤ 19) :
    9 < tens % 16 + ac1 ∨ 16 ≤ tens ↔ 10 ≤ tens + ac1 := by
  omega

theorem adjusted_high_digit {tens ac1 : Nat} (h : tens + ac1 ≤ 19) :
    (if 9 < tens % 16 + ac1 ∨ 16 ≤ tens then (tens % 16 + 6 + ac1) % 16 else (tens % 16 + ac1) % 16) =
      (tens + ac1) % 10 := by
  split <;> omega

/-- Settles O44: both digits and C of the adjusted byte, from those of the sum. -/
theorem decimalAdditionIsCorrect : Obligations.DecimalAdditionIsCorrect := by
  intro f g a b r hsum ha0 ha1 hb0 hb1 sum
  obtain ⟨hones, htens, hac, hc⟩ := hsum.digits
  obtain ⟨hlow, hhigh, hcarry, -⟩ := decimalAdjust_isDecimalAdjustment g r
  have hdecimal := decimal_carry (ones := a.toNat % 16 + b.toNat % 16) (by omega)
  simp only [hones, htens, hac, hc] at hlow hhigh hcarry
  rw [adjusted_low_digit (by omega)] at hlow
  rw [adjusted_high_digit (by omega), Nat.add_assoc, hdecimal] at hhigh
  rw [adjusted_carry (by omega), Nat.add_assoc, hdecimal] at hcarry
  exact ⟨by omega, hcarry.trans (by omega)⟩

end Sys2Proof.Machine
end

section
/-! The logic instructions on `[m]` (41_logic.md R220 to R226, R230, R231): each is one of the two forms of an operation
on ACC and the byte read, whose result alone decides the flags. -/

namespace Sys2Proof.Machine

/-- The byte `r` is `op` of ACC and the byte `v`, and the flags `g` are those of `s` with Z the zero test of `r`
(41_logic.md R220). -/
def IsLogicResult (op : Byte → Byte → Byte) (s : State) (v r : Byte) (g : Flags) : Prop :=
  r = op s.acc v ∧ g = { s.flags with z := decide (r.toNat = 0) }

theorem zeroOnly_isLogicResult (op : Byte → Byte → Byte) (s : State) (v : Byte) :
    IsLogicResult op s v (zeroOnly s.flags (op s.acc v)).1 (zeroOnly s.flags (op s.acc v)).2 := by
  rw [zeroOnly_eq]
  exact ⟨rfl, rfl⟩

section
variable {i : Instr} {m : DataAddr} {op : Byte → Byte → Byte}

theorem Accumulates.of_logic
    (hexec : ∀ s, exec i s = accForm m s fun t v => zeroOnly t.flags (op t.acc v)) :
    Accumulates i m (IsLogicResult op) :=
  .of_accForm (op := fun f a v => zeroOnly f (op a v)) hexec (zeroOnly_isLogicResult op)

theorem Modifies.of_logic
    (hexec : ∀ s, exec i s = modifyFlagForm m s fun t v => zeroOnly t.flags (op t.acc v)) :
    Modifies i m (IsLogicResult op) :=
  .of_modifyFlagForm (op := fun f a v => zeroOnly f (op a v)) hexec (zeroOnly_isLogicResult op)

end

/-- Settles O45: the eight instructions are the two forms of AND, OR, XOR and the complement; CPL and CPLA take the
complement of the byte read and do not look at ACC. -/
theorem logic : Obligations.Logic := fun m =>
  ⟨.of_logic (op := (· &&& ·)) (exec_andAM m), .of_logic (op := (· ||| ·)) (exec_orAM m),
    .of_logic (op := (· ^^^ ·)) (exec_xorAM m),
    .of_logic (op := fun _ v => not8 v) fun s => by simp only [exec_cplaM, not8_eq],
    toNat_append_fields _ m, toNat_append_fields _ m, toNat_append_fields _ m, toNat_append_fields _ m,
    .of_logic (op := (· &&& ·)) (exec_andmAM m), .of_logic (op := (· ||| ·)) (exec_ormAM m),
    .of_logic (op := (· ^^^ ·)) (exec_xormAM m),
    .of_logic (op := fun _ v => not8 v) fun s => by simp only [exec_cplM, not8_eq],
    toNat_append_fields _ m, toNat_append_fields _ m, toNat_append_fields _ m, toNat_append_fields _ m⟩

end Sys2Proof.Machine
end

section
/-! The instructions that compute a byte without a flag (20_memory.md R109): `OP A,[m]` keeps the flags, and the
read-modify-write form has STATUS as a destination like any other. An instruction is then settled by what its operation
makes of the byte read. -/

namespace Sys2Proof.Machine

section
variable {i : Instr} {m : DataAddr} {s : State} {op : Byte → Byte} {R : Byte → Byte → Prop}

/-- An instruction of the form `OP A,[m]` that hands its flags on does to ACC what its operation says. -/
theorem Accumulates.of_flagless (hexec : ∀ s, exec i s = accForm m s fun t v => (op v, t.flags))
    (hop : ∀ v, R v (op v)) : Accumulates i m fun s v r g => R v r ∧ g = s.flags :=
  .of_accForm (op := fun f _ v => (op v, f)) hexec fun _ v => ⟨hop v, rfl⟩

/-- The read-modify-write form away from the unimplemented addresses: read, operate, write back. -/
theorem modifyForm_writes (hu : ea m s ≠ .unmapped) :
    modifyForm m s op = memWrite (ea m s) (op (s.val m)) ((s.seen m).addCycles 1) :=
  if_neg hu

/-- An instruction of the read-modify-write form does to `[m]` what its operation says. -/
theorem ModifiesPlainly.of_modifyForm (hexec : ∀ s, exec i s = modifyForm m s op) (hop : ∀ v, R v (op v)) :
    ModifiesPlainly i m R := by
  intro s
  refine ⟨fun hu hw => ⟨_, hop (s.val m), ?elsewhere⟩,
    fun hw => ⟨_, hop (s.val m), fun hv => ?wdts, fun hv => ?wdtsReserved⟩,
    fun hu => (hexec s).trans (withLoc_unmapped hu)⟩
  case elsewhere =>
    rw [hexec, modifyForm_writes hu]
    exact memWrite_accepted (Loc.accepts_of_ne hu hw _)
  case wdts =>
    rw [hexec, modifyForm_writes (by simp [hw]), hw]
    exact memWrite_accepted (Loc.accepts_wdts.2 hv)
  case wdtsReserved =>
    rw [hexec, modifyForm_writes (by simp [hw]), hw]
    exact memWrite_wdts_refused hv _

end

end Sys2Proof.Machine
end

section
/-! The increments, the decrements and the rotates (42_incdec_rotate.md R240 to R253). A count is an addition modulo
256, a decrement being the addition of 255. A rotate moves the bits of the byte by one place, down or up, and fills the
place left free from the bit that fell out or from C: `MovesDown` and `MovesUp` name that bit. -/

namespace Sys2Proof.Machine

/-- The byte `r` is `v + n` modulo 256, and the flags `g` are those of `s` with Z the zero test of `r`
(42_incdec_rotate.md R244). -/
def IsCount (n : Nat) (s : State) (v r : Byte) (g : Flags) : Prop :=
  r.toNat = (v.toNat + n) % 256 ∧ g = { s.flags with z := decide (r.toNat = 0) }

theorem zeroOnly_isCount {n : Nat} {s : State} {v r : Byte} (h : r.toNat = (v.toNat + n) % 256) :
    IsCount n s v (zeroOnly s.flags r).1 (zeroOnly s.flags r).2 := by
  rw [zeroOnly_eq]
  exact ⟨h, rfl⟩

theorem increment_isCount (s : State) (v : Byte) :
    IsCount 1 s v (zeroOnly s.flags (v + 1#8)).1 (zeroOnly s.flags (v + 1#8)).2 :=
  zeroOnly_isCount (BitVec.toNat_add v 1#8)

theorem decrement_isCount (s : State) (v : Byte) :
    IsCount 255 s v (zeroOnly s.flags (v - 1#8)).1 (zeroOnly s.flags (v - 1#8)).2 :=
  zeroOnly_isCount ((BitVec.toNat_sub v 1#8).trans (by rw [Nat.add_comm]; rfl))

/-- Settles O46: each count is the form `OP A,[m]` or the read-modify-write form of the one operation. -/
theorem incrementAndDecrement : Obligations.IncrementAndDecrement := fun m =>
  ⟨.of_accForm (op := fun f _ v => zeroOnly f (v + 1#8)) (exec_incaM m) increment_isCount,
    .of_modifyFlagForm (op := fun f _ v => zeroOnly f (v + 1#8)) (exec_incM m) increment_isCount,
    .of_accForm (op := fun f _ v => zeroOnly f (v - 1#8)) (exec_decaM m) decrement_isCount,
    .of_modifyFlagForm (op := fun f _ v => zeroOnly f (v - 1#8)) (exec_decM m) decrement_isCount,
    toNat_append_fields _ m, toNat_append_fields _ m, toNat_append_fields _ m, toNat_append_fields _ m⟩

/-- Every bit of `v` goes one place down, and `top` comes in as bit 7. -/
def MovesDown (top : Bool) (v r : Byte) : Prop :=
  (∀ j, j < 7 → r.getLsbD j = v.getLsbD (j + 1)) ∧ r.getLsbD 7 = top

/-- Every bit of `v` goes one place up, and `bottom` comes in as bit 0. -/
def MovesUp (bottom : Bool) (v r : Byte) : Prop :=
  (∀ j, j < 7 → r.getLsbD (j + 1) = v.getLsbD j) ∧ r.getLsbD 0 = bottom

theorem append_movesDown (top : Bool) (v : Byte) :
    MovesDown top v (BitVec.ofBool top ++ v.extractLsb' 1 7 : BitVec (1 + 7)) := by
  refine ⟨fun j hj => ?lower, ?filled⟩ <;> rw [BitVec.getLsbD_append]
  case lower => simp [hj, Nat.add_comm]
  case filled => simp

theorem append_movesUp (bottom : Bool) (v : Byte) :
    MovesUp bottom v (v.extractLsb' 0 7 ++ BitVec.ofBool bottom : BitVec (7 + 1)) := by
  refine ⟨fun j hj => ?upper, ?filled⟩ <;> rw [BitVec.getLsbD_append]
  case upper => simp [hj]
  case filled => simp

/-- The field of one bit is that bit. -/
theorem bitField_eq (v : Byte) (k : Nat) : v.extractLsb' k 1 = BitVec.ofBool (v.getLsbD k) :=
  (field_eq_iff v k 1 _).2 (toNat_bit v k).symm

theorem rotateRight_movesDown (v : Byte) : MovesDown (v.getLsbD 0) v (rotateRight v) := by
  rw [rotateRight, bitField_eq]
  exact append_movesDown _ v

theorem rotateLeft_movesUp (v : Byte) : MovesUp (v.getLsbD 7) v (rotateLeft v) := by
  rw [rotateLeft, bitField_eq]
  exact append_movesUp _ v

/-- C and the byte rotate right together, and the other flags stay (42_incdec_rotate.md R247, R253). -/
theorem rotateRightCarry_rotates (s : State) (v : Byte) :
    (∀ j, j < 7 → (rotateRightCarry s.flags v).1.getLsbD j = v.getLsbD (j + 1)) ∧
      (rotateRightCarry s.flags v).1.getLsbD 7 = s.flags.c ∧
      (rotateRightCarry s.flags v).2 = { s.flags with c := v.getLsbD 0 } :=
  and_assoc.1 ⟨append_movesDown s.flags.c v, rfl⟩

/-- C and the byte rotate left together, and the other flags stay (42_incdec_rotate.md R251, R253). -/
theorem rotateLeftCarry_rotates (s : State) (v : Byte) :
    (∀ j, j < 7 → (rotateLeftCarry s.flags v).1.getLsbD (j + 1) = v.getLsbD j) ∧
      (rotateLeftCarry s.flags v).1.getLsbD 0 = s.flags.c ∧
      (rotateLeftCarry s.flags v).2 = { s.flags with c := v.getLsbD 7 } :=
  and_assoc.1 ⟨append_movesUp s.flags.c v, rfl⟩

/-- Settles O47: the plain rotates keep the flags in both forms, the rotates through carry set C in both. -/
theorem rotates : Obligations.Rotates := fun m =>
  ⟨.of_flagless (exec_rraM m) rotateRight_movesDown, .of_modifyForm (exec_rrM m) rotateRight_movesDown,
    .of_flagless (exec_rlaM m) rotateLeft_movesUp, .of_modifyForm (exec_rlM m) rotateLeft_movesUp,
    toNat_append_fields _ m, toNat_append_fields _ m, toNat_append_fields _ m, toNat_append_fields _ m,
    .of_accForm (op := fun f _ v => rotateRightCarry f v) (exec_rrcaM m) rotateRightCarry_rotates,
    .of_modifyFlagForm (op := fun f _ v => rotateRightCarry f v) (exec_rrcM m) rotateRightCarry_rotates,
    .of_accForm (op := fun f _ v => rotateLeftCarry f v) (exec_rlcaM m) rotateLeftCarry_rotates,
    .of_modifyFlagForm (op := fun f _ v => rotateLeftCarry f v) (exec_rlcM m) rotateLeftCarry_rotates,
    toNat_append_fields _ m, toNat_append_fields _ m, toNat_append_fields _ m, toNat_append_fields _ m⟩

end Sys2Proof.Machine
end

section
/-! The pure write as the relation of the statements (45_table_misc.md R311): `[m]` takes the byte, and the operand is
not read. -/

namespace Sys2Proof.Machine

/-- An instruction that is the pure write of a byte stores that byte and does nothing before it. -/
theorem Stores.of_storeForm {i : Instr} {m : DataAddr} {v : State → Byte}
    (hexec : ∀ s, exec i s = storeForm m s (v s)) : Stores i m v (fun s => s) 1 := by
  intro s
  refine ⟨fun hu hw => ?elsewhere, fun hw hv => ?wdts, fun hw hv => ?wdtsReserved,
    fun hu => (hexec s).trans (withLoc_unmapped hu)⟩
  case elsewhere => exact (hexec s).trans (storeForm_next.2 ⟨hu, Loc.accepts_of_ne hu hw _, rfl⟩)
  case wdts =>
    rw [hexec, storeForm_next, hw]
    exact ⟨Loc.noConfusion, Loc.accepts_wdts.2 hv, rfl⟩
  case wdtsReserved =>
    rw [hexec, storeForm, withLoc, hw, if_neg Loc.noConfusion]
    exact memWrite_wdts_refused hv _

end Sys2Proof.Machine
end

section
/-! The moves, the bit instructions and SWAP (43_move_bit.md R260 to R265, 45_table_misc.md R316). The mask of bit `i`
is the byte with that bit alone (`getLsbD_bitMask`), so clearing and setting under it change that bit and no other. -/

namespace Sys2Proof.Machine

/-- Settles O48: MOV A,[m] hands on the byte read with the flags, MOV [m],A is the pure write of ACC, and MOV A,x is the
immediate form of the operand. -/
theorem moves : Obligations.Moves :=
  ⟨fun m => ⟨.of_flagless (exec_movAM m) fun _ => rfl, .of_storeForm (exec_movMA m),
      toNat_append_fields _ m, toNat_append_fields _ m⟩,
    fun x s => ⟨(exec_movAx x s).trans (immForm_eq x s _), toNat_append_fields _ x⟩⟩

/-- The mask `2^i` has bit `i` alone. -/
theorem getLsbD_bitMask (i : BitVec 3) {j : Nat} (hj : j < 8) : (bitMask i).getLsbD j = decide (j = i.toNat) := by
  rw [bitMask, BitVec.getLsbD_ofNat, decide_eq_true hj, Bool.true_and, Nat.testBit_two_pow]
  exact decide_eq_decide.2 eq_comm

theorem clearBit_bits (i : BitVec 3) (v : Byte) :
    ∀ j, j < 8 → (v &&& ~~~bitMask i).getLsbD j = if j = i.toNat then false else v.getLsbD j := by
  intro j hj
  rw [BitVec.getLsbD_and, BitVec.getLsbD_not, getLsbD_bitMask i hj]
  split
  case isTrue h => simp [h]
  case isFalse h => simp [h, hj]

theorem setBit_bits (i : BitVec 3) (v : Byte) :
    ∀ j, j < 8 → (v ||| bitMask i).getLsbD j = if j = i.toNat then true else v.getLsbD j := by
  intro j hj
  rw [BitVec.getLsbD_or, getLsbD_bitMask i hj]
  split
  case isTrue h => simp [h]
  case isFalse h => simp [h]

/-- The nibbles change places, as numbers (45_table_misc.md R316). -/
theorem toNat_swapNibbles (v : Byte) : (swapNibbles v).toNat = 16 * (v.toNat % 16) + v.toNat / 16 := by
  have hv : v.toNat < 256 := v.isLt
  rw [swapNibbles, toNat_append_fields, toNat_field, toNat_field]
  omega

/-- A word of the bit format, as a number: the base, 128 for each bit number, and the address (30_encoding.md R153). -/
theorem toNat_bitWord (b : BitVec 4) (i : BitVec 3) (m : DataAddr) :
    (b ++ i ++ m).toNat = 1024 * b.toNat + 128 * i.toNat + m.toNat := by
  rw [toNat_append_fields, toNat_append_fields]
  omega

/-- Settles O49: each instruction is the read-modify-write form of its operation on the byte read. -/
theorem bitAndSwapInMemory : Obligations.BitAndSwapInMemory := fun m i =>
  ⟨.of_modifyForm (exec_clrBit m i) (clearBit_bits i), .of_modifyForm (exec_setBit m i) (setBit_bits i),
    .of_modifyForm (exec_swapM m) toNat_swapNibbles,
    toNat_bitWord _ i m, toNat_bitWord _ i m, toNat_append_fields _ m⟩

end Sys2Proof.Machine
end

section
/-! JMP, CALL and the returns (44_branch.md R272, R281 to R284), with the stack of four levels (10_state.md R27, R28).
CALL is settled by what a push leaves with a level free and with none, the returns by what the shared return does to a
stack with an entry and to an empty one. -/

namespace Sys2Proof.Machine

theorem State.push_of_room {s : State} (h : s.stk.length < 4) (a : ProgAddr) : s.push a = s.setStk (a :: s.stk) :=
  congrArg s.setStk (List.take_of_length_le h)

/-- The oldest of four entries is lost (10_state.md R27). -/
theorem State.push_of_full {s : State} {w x y z : ProgAddr} (h : s.stk = [w, x, y, z]) (a : ProgAddr) :
    s.push a = s.setStk [a, w, x, y] := by
  rw [State.push, h]
  rfl

theorem returnWith_pops {s : State} {b : ProgAddr} {rest : List ProgAddr} (h : s.stk = b :: rest) (g : State → State) :
    returnWith s g = .next ((g ((s.setStk rest).setPc b)).addCycles 2) :=
  returnWith_next.2 ⟨b, rest, h, rfl⟩

/-- With the stack empty the spec refuses (10_state.md R28). -/
theorem returnWith_empty {s : State} (h : s.stk = []) (g : State → State) :
    returnWith s g = .refused .stackUnderflow := by
  rw [returnWith, State.popPc, h]
  rfl

/-- Settles O52: CALL by the two pushes, the three returns as the shared return with what each adds to it. -/
theorem jumpCallReturn : Obligations.JumpCallReturn := by
  intro a s x
  refine ⟨exec_jmp a s, fun hroom => ?callWithRoom, fun w x y z hfull => ?callWhenFull,
    toNat_append_fields _ a, toNat_append_fields _ a, fun b rest hstk => ?returns, fun hempty => ?underflow,
    rfl, rfl, toNat_append_fields _ x⟩
  case callWithRoom =>
    rw [exec_call, State.push_of_room hroom]
    rfl
  case callWhenFull =>
    rw [exec_call, State.push_of_full hfull]
    rfl
  case returns => exact ⟨returnWith_pops hstk _, returnWith_pops hstk _, returnWith_pops hstk _⟩
  case underflow => exact ⟨returnWith_empty hempty _, returnWith_empty hempty _, returnWith_empty hempty _⟩

end Sys2Proof.Machine
end

section
/-! The skips (44_branch.md R271, R273 to R280): the three skip forms, read as the relations of the statements. Each
reads `[m]` and takes its cycle before it skips, and neither the read nor a load of ACC touches PC, so what is stepped
over is the word at the PC the instruction began with. -/

namespace Sys2Proof.Machine

/-- A skip after the instruction's own cycle: the next word is stepped over, in two cycles altogether. -/
theorem State.skipIf_addCycles (s : State) (c : Bool) :
    (s.addCycles 1).skipIf c = if c = true then (s.setPc (s.pc + 1#11)).addCycles 2 else s.addCycles 1 := by
  cases c <;> rfl

/-- The same with the zero test of a byte as the condition. -/
theorem State.skipIf_zero_addCycles (s : State) (r : Byte) :
    (s.addCycles 1).skipIf (r == 0x00#8) =
      if r = 0x00#8 then (s.setPc (s.pc + 1#11)).addCycles 2 else s.addCycles 1 := by
  simp only [State.skipIf_addCycles, beq_iff_eq]

@[simp] theorem State.seen_pc (s : State) (m : DataAddr) : (s.seen m).pc = s.pc := memRead_pc (ea m s) s

section
variable {i : Instr} {m : DataAddr} {s : State}

/-- A skip of the testing form skips by what its test says of the byte read. -/
theorem TestsAndSkips.of_testSkipForm {test : Byte → Bool} {P : Byte → Prop}
    (hexec : ∀ s, exec i s = testSkipForm m s test) (htest : ∀ v, test v = true ↔ P v) : TestsAndSkips i m P := by
  intro s
  have hskip : ea m s ≠ .unmapped → exec i s = .next (((s.seen m).addCycles 1).skipIf (test (s.val m))) :=
    fun hu => (hexec s).trans (testSkipForm_next.2 ⟨hu, rfl⟩)
  refine ⟨fun hu hP => ?taken, fun hu hP => ?notTaken, fun hu => (hexec s).trans (withLoc_unmapped hu)⟩
  case taken => rw [hskip hu, State.skipIf_addCycles, if_pos ((htest _).2 hP), State.seen_pc]
  case notTaken => rw [hskip hu, State.skipIf_addCycles, if_neg (mt (htest _).1 hP)]

/-- A skip of the loading form loads and tests what its operation makes of the byte read. -/
theorem LoadsAndSkips.of_accSkipForm {op : Byte → Byte} {R : Byte → Byte → Prop}
    (hexec : ∀ s, exec i s = accSkipForm m s op) (hop : ∀ v, R v (op v)) : LoadsAndSkips i m R := by
  intro s
  refine ⟨fun hu => ⟨op (s.val m), hop _, ?_⟩, fun hu => (hexec s).trans (withLoc_unmapped hu)⟩
  have hskip : exec i s =
      .next ((((s.seen m).setAcc (op (s.val m))).addCycles 1).skipIf (op (s.val m) == 0x00#8)) :=
    (hexec s).trans (accSkipForm_next.2 ⟨hu, rfl⟩)
  rw [hskip, State.skipIf_zero_addCycles, State.setAcc_pc, State.seen_pc]

/-- The counting skips away from PCL and the unimplemented addresses: read, operate, skip on a zero result, and write
that result back. -/
theorem modifySkipForm_writes {op : Byte → Byte} (hu : ea m s ≠ .unmapped) (hp : ea m s ≠ .pcl) :
    modifySkipForm m s op = memWrite (ea m s) (op (s.val m))
      (if op (s.val m) = 0x00#8 then ((s.seen m).setPc (s.pc + 1#11)).addCycles 2 else (s.seen m).addCycles 1) := by
  rw [modifySkipForm, withLoc, if_neg hu, if_neg hp, ← State.seen_pc s m, ← State.skipIf_zero_addCycles]
  rfl

theorem modifySkipForm_pcl {op : Byte → Byte} (h : ea m s = .pcl) :
    modifySkipForm m s op = .refused .skipToPcl := by
  rw [modifySkipForm, withLoc, h]
  rfl

/-- A byte that WDTS takes is not zero, so a counting skip on WDTS never skips. -/
theorem ne_zero_of_wdts_byte {v : Byte} (h : v.extractLsb' 3 5 = 0b10000#5) : v ≠ 0x00#8 := by
  rintro rfl
  exact absurd h (by decide)

/-- A skip of the counting form stores and tests what its operation makes of the byte read. -/
theorem CountsAndSkips.of_modifySkipForm {op : Byte → Byte} {R : Byte → Byte → Prop}
    (hexec : ∀ s, exec i s = modifySkipForm m s op) (hop : ∀ v, R v (op v)) : CountsAndSkips i m R := by
  intro s
  refine ⟨fun hu hp hw => ⟨_, hop (s.val m), ?elsewhere⟩,
    fun hw => ⟨_, hop (s.val m), fun hv => ?wdts, fun hv => ?wdtsReserved⟩,
    fun hp => (hexec s).trans (modifySkipForm_pcl hp), fun hu => (hexec s).trans (withLoc_unmapped hu)⟩
  case elsewhere =>
    rw [hexec, modifySkipForm_writes hu hp]
    exact memWrite_accepted (Loc.accepts_of_ne hu hw _)
  case wdts =>
    rw [hexec, modifySkipForm_writes (by simp [hw]) (by simp [hw]), hw, if_neg (ne_zero_of_wdts_byte hv)]
    exact memWrite_accepted (Loc.accepts_wdts.2 hv)
  case wdtsReserved =>
    rw [hexec, modifySkipForm_writes (by simp [hw]) (by simp [hw]), hw]
    exact memWrite_wdts_refused hv _

end

theorem toNat_increment (v : Byte) : (v + 1#8).toNat = (v.toNat + 1) % 256 := BitVec.toNat_add v 1#8

theorem toNat_decrement (v : Byte) : (v - 1#8).toNat = (v.toNat + 255) % 256 := by
  rw [BitVec.toNat_sub, Nat.add_comm]
  rfl

theorem beq_zero_iff_toNat (v : Byte) : (v == 0x00#8) = true ↔ v.toNat = 0 :=
  beq_iff_eq.trans BitVec.toNat_inj.symm

/-- Settles O53: each skip is one of the three forms, of its test or of its operation on the byte read. -/
theorem skips : Obligations.Skips := fun m i =>
  ⟨.of_testSkipForm (exec_szM m) beq_zero_iff_toNat,
    .of_testSkipForm (exec_szBit m i) fun _ => Iff.of_eq (Bool.not_eq_true' _),
    .of_testSkipForm (exec_snzBit m i) fun _ => Iff.rfl,
    toNat_append_fields _ m, toNat_bitWord _ i m, toNat_bitWord _ i m,
    .of_accSkipForm (exec_szaM m) fun _ => rfl, .of_accSkipForm (exec_sizaM m) toNat_increment,
    .of_accSkipForm (exec_sdzaM m) toNat_decrement,
    toNat_append_fields _ m, toNat_append_fields _ m, toNat_append_fields _ m,
    .of_modifySkipForm (exec_sizM m) toNat_increment, .of_modifySkipForm (exec_sdzM m) toNat_decrement,
    toNat_append_fields _ m, toNat_append_fields _ m⟩

end Sys2Proof.Machine
end

section
/-! NOP, CLR [m], SET [m] and SWAPA [m] (45_table_misc.md R310 to R312, R317), and the table reads (R300 to R304). A
table read is the pure write of the low byte of the word, after its upper bits have gone to TBLH; the fields of the word
and of the address are those of the statements as numbers. -/

namespace Sys2Proof.Machine

/-- Settles O50: CLR and SET are pure writes of a constant, SWAPA is the form `OP A,[m]` of the exchange of nibbles. -/
theorem nopClearSetSwapa : Obligations.NopClearSetSwapa :=
  ⟨exec_nop, rfl, fun m => ⟨.of_storeForm (exec_clrM m), .of_storeForm (exec_setM m),
    .of_flagless (exec_swapaM m) toNat_swapNibbles,
    toNat_append_fields _ m, toNat_append_fields _ m, toNat_append_fields _ m⟩⟩

/-- The low byte of a code word, as a number (45_table_misc.md R300). -/
theorem ofNat_wordLow (w : CodeWord) : BitVec.ofNat 8 w.toNat = w.extractLsb' 0 8 := by
  rw [eq_comm, field_eq_iff, BitVec.toNat_ofNat]
  omega

/-- The upper six bits of a code word as TBLH holds them (45_table_misc.md R300). -/
theorem ofNat_wordHigh (w : CodeWord) :
    BitVec.ofNat 7 (w.toNat / 256) = (0#1 ++ w.extractLsb' 8 6 : BitVec (1 + 6)) := by
  have hw : w.toNat < 16384 := w.isLt
  refine BitVec.eq_of_toNat_eq ?_
  rw [BitVec.toNat_ofNat, toNat_append_fields, toNat_field]
  change w.toNat / 256 % 128 = 0 * 64 + w.toNat / 256 % 64
  omega

/-- A page and an offset in it, as a number: the table address of 45_table_misc.md R301 and R302. -/
theorem ofNat_pageOffset (page : BitVec 3) (offset : Byte) :
    BitVec.ofNat 11 (256 * page.toNat + offset.toNat) = (page ++ offset : BitVec (3 + 8)) := by
  refine BitVec.eq_of_toNat_eq ?_
  have hpage : page.toNat < 8 := page.isLt
  have hoffset : offset.toNat < 256 := offset.isLt
  rw [BitVec.toNat_ofNat, toNat_append_fields]
  omega

/-- The page of an address is its upper three bits (10_state.md R22). -/
theorem ofNat_page (a : ProgAddr) : BitVec.ofNat 3 (a.toNat / 256) = a.extractLsb' 8 3 := by
  rw [eq_comm, field_eq_iff, BitVec.toNat_ofNat]
  rfl

/-- A table read writes TBLH, then stores the low byte of the word at its table address. -/
theorem Stores.of_tableRead {i : Instr} {m : DataAddr} {a : State → ProgAddr}
    (hexec : ∀ s, exec i s = tableRead (a s) m s) :
    Stores i m (fun s => BitVec.ofNat 8 (s.romWord (a s)).toNat)
      (fun s => { s with tblh := BitVec.ofNat 7 ((s.romWord (a s)).toNat / 256) }) 2 := by
  intro s
  simp only [ofNat_wordLow, ofNat_wordHigh]
  refine ⟨fun hu hw => ?elsewhere, fun hw hv => ?wdts, fun hw hv => ?wdtsReserved,
    fun hu => (hexec s).trans (withLoc_unmapped hu)⟩
  case elsewhere => exact (hexec s).trans (tableRead_next.2 ⟨hu, Loc.accepts_of_ne hu hw _, rfl⟩)
  case wdts =>
    rw [hexec, tableRead_next, hw]
    exact ⟨Loc.noConfusion, Loc.accepts_wdts.2 hv, rfl⟩
  case wdtsReserved =>
    rw [hexec, tableRead, withLoc, hw, if_neg Loc.noConfusion]
    exact memWrite_wdts_refused hv _

/-- Settles O51: each is the table read at its own address, whose page is TBHP, the incremented PC's, or the last. -/
theorem tableReads : Obligations.TableReads := by
  intro m address current last low high
  have hcurrent : ∀ s, current s = tabrdcAddr s := fun s => by
    simp only [current, address, ofNat_pageOffset, ofNat_page, tabrdcAddr]
  have hlast : ∀ s, last s = tabrdlAddr s := fun s => ofNat_pageOffset 7#3 s.tblp
  exact ⟨.of_tableRead fun s => by rw [exec_tabrdcM, hcurrent], .of_tableRead fun s => by rw [exec_tabrdlM, hlast],
    toNat_append_fields _ m, toNat_append_fields _ m⟩

end Sys2Proof.Machine
end

section
/-! HALT and the CLR WDT group (45_table_misc.md R313 to R315, R318). What a CLR WDT instruction does is said once, by
whether it clears or leaves its mark (D25); no other instruction but HALT touches the mark, so a pair completes at any
distance (61_timers_wdt.md R474). -/

namespace Sys2Proof.Machine

theorem exec_halt (s : State) : exec .halt s = execHalt s := rfl

/-- Settles O20: by the clock source of the watchdog. -/
theorem haltEntersPowerDown : Obligations.HaltEntersPowerDown := by
  intro s
  refine ⟨rfl, ?_⟩
  rw [exec_halt, execHalt, State.wdtOnHalt]
  split
  case isTrue => rfl
  case isFalse => rfl

section
variable {s t u : State} {mine other : Preclear}

/-- With `CLRWDT_TIMES` = 1 each clears (45_table_misc.md R313). -/
theorem State.preclearWdt_one (h : s.config.clrWdtTimes = .one) : s.preclearWdt mine other = s.wdtClearFlags := by
  rw [State.preclearWdt, h]

/-- The instruction that completes the pair clears. -/
theorem State.preclearWdt_completes (h : s.config.clrWdtTimes = .two) (hpre : s.wdt.pre = other) :
    s.preclearWdt mine other = s.wdtClearFlags := by
  rw [State.preclearWdt, h]
  exact if_pos hpre

/-- The instruction that does not complete the pair leaves its mark. -/
theorem State.preclearWdt_marks (h : s.config.clrWdtTimes = .two) (hpre : s.wdt.pre ≠ other) :
    s.preclearWdt mine other = s.setWdt { s.wdt with pre := mine } := by
  rw [State.preclearWdt, h]
  exact if_neg hpre

/-- Instructions other than HALT and the CLR WDT group leave the mark and the configuration. -/
theorem execAll_keeps_mark {between : List Instr} (hbetween : ∀ i ∈ between, i.flagEffect ≠ .power)
    (h : execAll between t = .next u) : u.wdt.pre = t.wdt.pre ∧ u.config = t.config := by
  induction between generalizing t with
  | nil => cases h; exact ⟨rfl, rfl⟩
  | cons i rest ih =>
    obtain ⟨t', hfirst, hrest⟩ := andThen_next.1 h
    have hframe := exec_framed hfirst
    obtain ⟨-, hpre⟩ := hframe.watchdog (hbetween i (List.mem_cons_self ..))
    obtain ⟨hpre', hconfig'⟩ := ih (fun j hj => hbetween j (List.mem_cons_of_mem i hj)) hrest
    exact ⟨hpre'.trans hpre, hconfig'.trans hframe.chip.2⟩

/-- Either order of the pair: the first half leaves its mark, which stands until the second half clears. -/
theorem preclearWdt_pair {between : List Instr} (htwo : s.config.clrWdtTimes = .two)
    (hbetween : ∀ i ∈ between, i.flagEffect ≠ .power) (hpre : s.wdt.pre ≠ other)
    (h : execAll between ((s.preclearWdt mine other).addCycles 1) = .next u) :
    u.preclearWdt other mine = u.wdtClearFlags := by
  obtain ⟨hmark, hconfig⟩ := execAll_keeps_mark hbetween h
  rw [State.preclearWdt_marks htwo hpre] at hmark hconfig
  exact State.preclearWdt_completes (hconfig ▸ htwo) hmark

theorem State.wdtClearFlags_cleared (s : State) :
    s.wdtClearFlags.wdt.cnt = 0 ∧ s.wdtClearFlags.wdt.pre = .none ∧ s.wdtClearFlags.flags.timeout = false ∧
      s.wdtClearFlags.flags.pdf = false :=
  ⟨rfl, rfl, rfl, rfl⟩

end

/-- Settles O29: CLR WDT and CLR WDT1 are the same half of the pair, CLR WDT2 is the other. -/
theorem watchdogClearInstructions : Obligations.WatchdogClearInstructions := by
  intro s cleared marked
  refine ⟨rfl, rfl, rfl, fun hone => ?oneTime, fun htwo => ?twoTimes⟩
  case oneTime =>
    have hclears (mine other : Preclear) : (s.preclearWdt mine other).addCycles 1 = cleared := by
      rw [State.preclearWdt_one hone]
      rfl
    rw [exec_clrWdt, exec_clrWdt1, exec_clrWdt2, hclears, hclears]
    exact ⟨rfl, rfl, rfl⟩
  case twoTimes =>
    have hcompletes {mine other : Preclear} (hpre : s.wdt.pre = other) :
        (s.preclearWdt mine other).addCycles 1 = cleared := by
      rw [State.preclearWdt_completes htwo hpre]
      rfl
    have hmarks {mine other : Preclear} (hpre : s.wdt.pre ≠ other) :
        (s.preclearWdt mine other).addCycles 1 = marked mine := by
      rw [State.preclearWdt_marks htwo hpre]
      rfl
    rw [exec_clrWdt, exec_clrWdt1, exec_clrWdt2]
    exact ⟨fun hpre => ⟨congrArg _ (hcompletes hpre), congrArg _ (hcompletes hpre)⟩,
      fun hpre => ⟨congrArg _ (hmarks hpre), congrArg _ (hmarks hpre)⟩,
      fun hpre => congrArg _ (hcompletes hpre), fun hpre => congrArg _ (hmarks hpre)⟩

/-- Settles O30: both orders are the one pair, with the marks exchanged. -/
theorem watchdogPairAtAnyDistance : Obligations.WatchdogPairAtAnyDistance := by
  intro s t u v between htwo hbetween
  refine ⟨fun hpre ht hu hv => ?oneThenTwo, fun hpre ht hu hv => ?twoThenOne⟩
  case oneThenTwo =>
    cases ht
    rw [exec_clrWdt2, preclearWdt_pair htwo hbetween hpre hu] at hv
    cases hv
    exact u.wdtClearFlags_cleared
  case twoThenOne =>
    cases ht
    rw [exec_clrWdt1, preclearWdt_pair htwo hbetween hpre hu] at hv
    cases hv
    exact u.wdtClearFlags_cleared

end Sys2Proof.Machine
end

section
/-! The interrupts (60_exceptions.md R406 to R418). The acknowledge condition of R411 is said once, over the state before
the boundary counts toward `IRQ_LATENCY` (`State.due`), and so is what steps 3 and 4 of 70_reset_and_hazards.md R645 come
to: `boundary_enters` and `boundary_goesOn`, for a running machine and for a waking one. -/

namespace Sys2Proof.Machine

/-- The acknowledge condition of one source (60_exceptions.md R411) as the boundary meets it. -/
def State.due (s : State) : IrqSource → Prop
  | .usb =>
    s.intc.emi = true ∧ s.stk.length < 4 ∧ s.intc.eui = true ∧ s.intc.usbf = true ∧ s.config.irqLatency ≤ s.irqAge.usb
  | .timer =>
    s.intc.emi = true ∧ s.stk.length < 4 ∧ s.intc.eti = true ∧ s.intc.tf = true ∧ s.config.irqLatency ≤ s.irqAge.timer

/-- The conjunction of one source: the boundary itself is the one more at which the flag is seen. -/
theorem acknowledge_iff {emi enable flag : Bool} {depth latency age : Nat} :
    (emi && enable && flag && decide (depth < 4) && decide (latency < if flag then age + 1 else 0)) = true ↔
      emi = true ∧ depth < 4 ∧ enable = true ∧ flag = true ∧ latency ≤ age := by
  cases flag with
  | false => simp
  | true =>
    simp only [if_true, Nat.lt_succ_iff, Bool.and_eq_true, decide_eq_true_eq]
    tauto

theorem State.irqOk_ageRequests_iff (s : State) (src : IrqSource) : s.ageRequests.irqOk src = true ↔ s.due src := by
  cases src with
  | usb => exact acknowledge_iff
  | timer => exact acknowledge_iff

section
variable {s : State}

theorem State.acknowledged_usb (h : s.due .usb) : s.ageRequests.acknowledged = some .usb :=
  if_pos ((s.irqOk_ageRequests_iff .usb).2 h)

/-- The USB source comes first (60_exceptions.md R408). -/
theorem State.acknowledged_timer (h : s.due .timer) (husb : ¬s.due .usb) : s.ageRequests.acknowledged = some .timer :=
  (if_neg (mt (s.irqOk_ageRequests_iff .usb).1 husb)).trans (if_pos ((s.irqOk_ageRequests_iff .timer).2 h))

theorem State.acknowledged_none (husb : ¬s.due .usb) (htimer : ¬s.due .timer) : s.ageRequests.acknowledged = none :=
  (if_neg (mt (s.irqOk_ageRequests_iff .usb).1 husb)).trans (if_neg (mt (s.irqOk_ageRequests_iff .timer).1 htimer))

theorem State.wake_of_running (h : s.halt.halted = false) : s.wake = s :=
  if_neg (Bool.eq_false_iff.1 h)

theorem State.wake_of_halted (h : s.halt.halted = true) :
    s.wake = (s.setHalt { s.halt with halted := false }).setGap Gap.none :=
  if_pos h

/-- Waking changes nothing that the acknowledge condition reads. -/
theorem State.due_wake_iff (s : State) (src : IrqSource) : s.wake.due src ↔ s.due src := by
  unfold State.wake
  split
  · cases src <;> exact Iff.rfl
  · exact Iff.rfl

end

/-! What a boundary comes to after the environment's moves. -/

section
variable {s t : State} {src : IrqSource}

theorem boundary_of_moves (hmoves : environmentMoves s = .execute t) (hwdt : t.wdtTimedOut = false) :
    boundary s = wakeAndAcknowledge t := by
  unfold boundary
  rw [hmoves]
  exact if_neg (Bool.eq_false_iff.1 hwdt)

/-- A halted machine that no wake event reaches stays as it is (60_exceptions.md R431). -/
theorem boundary_waits (hmoves : environmentMoves s = .execute t) (hwdt : t.wdtTimedOut = false)
    (hhalt : t.halt.halted = true) (hsleep : t.wakes = false) : boundary s = .ends t := by
  rw [boundary_of_moves hmoves hwdt, wakeAndAcknowledge, hhalt, hsleep]
  rfl

/-- A machine that runs, or that a wake event reaches, enters the interrupt acknowledged. -/
theorem boundary_enters (hmoves : environmentMoves s = .execute t) (hwdt : t.wdtTimedOut = false)
    (hawake : (t.halt.halted && !t.wakes) = false) (hack : t.wake.ageRequests.acknowledged = some src) :
    boundary s = .ends (enterInterrupt src t.wake.ageRequests) := by
  rw [boundary_of_moves hmoves hwdt, wakeAndAcknowledge, hawake]
  simp only [Bool.false_eq_true, if_false, hack]

/-- With no interrupt acknowledged it executes. -/
theorem boundary_goesOn (hmoves : environmentMoves s = .execute t) (hwdt : t.wdtTimedOut = false)
    (hawake : (t.halt.halted && !t.wakes) = false) (hack : t.wake.ageRequests.acknowledged = none) :
    boundary s = .execute t.wake.ageRequests := by
  rw [boundary_of_moves hmoves hwdt, wakeAndAcknowledge, hawake]
  simp only [Bool.false_eq_true, if_false, hack]

theorem step_of_ends (h : boundary s = .ends t) : step s = .next t := by
  rw [step, h]

/-- The entry sequence with room on the stack (60_exceptions.md R412). -/
theorem enterInterrupt_of_room (src : IrqSource) (h : s.stk.length < 4) :
    ∃ ages, enterInterrupt src s =
      { s with
        pc := src.vector
        stk := s.pc :: s.stk
        intc := s.intc.acknowledge src
        irqAge := ages
        cyc := s.cyc + s.config.irqEntryCycles } := by
  rw [enterInterrupt, State.push_of_room h]
  exact ⟨_, rfl⟩

/-- A running machine that acknowledges a source enters its interrupt, and only the age of the request flags is left
open. -/
theorem step_enters_interrupt (hmoves : environmentMoves s = .execute t) (hwdt : t.wdtTimedOut = false)
    (hrun : t.halt.halted = false) (hroom : t.stk.length < 4) (hack : t.ageRequests.acknowledged = some src) :
    ∃ u, step s = .next u ∧
      u = { t with
        pc := src.vector
        stk := t.pc :: t.stk
        intc := t.intc.acknowledge src
        irqAge := u.irqAge
        cyc := t.cyc + t.config.irqEntryCycles } := by
  have hwake : t.wake = t := State.wake_of_running hrun
  have hends : boundary s = .ends (enterInterrupt src t.wake.ageRequests) :=
    boundary_enters hmoves hwdt (by rw [hrun]; rfl) (by rwa [hwake])
  obtain ⟨ages, hentry⟩ := enterInterrupt_of_room (s := t.ageRequests) src hroom
  rw [hwake, hentry] at hends
  exact ⟨_, step_of_ends hends, rfl⟩

end

/-- Settles O17: the entry of the source that the boundary acknowledges. -/
theorem interruptEntered : Obligations.InterruptEntered := by
  intro s t hmoves hwdt hrun hemi hroom
  refine ⟨fun heui husbf hage => ?usb, fun heti htf hage hno => ?timer⟩
  case usb =>
    have hdue : t.due .usb := ⟨hemi, hroom, heui, husbf, hage⟩
    exact step_enters_interrupt hmoves hwdt hrun hroom (State.acknowledged_usb hdue)
  case timer =>
    have hdue : t.due .timer := ⟨hemi, hroom, heti, htf, hage⟩
    have husb : ¬t.due .usb := fun ⟨_, _, heui, husbf, hage'⟩ => hno ⟨heui, husbf, hage'⟩
    exact step_enters_interrupt hmoves hwdt hrun hroom (State.acknowledged_timer hdue husb)

/-- Settles O18: in each of the three cases neither source meets the acknowledge condition. -/
theorem interruptHeldOff : Obligations.InterruptHeldOff := by
  intro s t hmoves hwdt hrun hoff
  have hnone : ¬t.due .usb ∧ ¬t.due .timer := by
    rcases hoff with hemi | hfull | ⟨husb, htimer⟩
    · have hmasked : ¬t.intc.emi = true := Bool.eq_false_iff.1 hemi
      exact ⟨fun ⟨h, _⟩ => hmasked h, fun ⟨h, _⟩ => hmasked h⟩
    · exact ⟨fun ⟨_, hroom, _⟩ => hroom.not_ge hfull, fun ⟨_, hroom, _⟩ => hroom.not_ge hfull⟩
    · exact ⟨fun ⟨_, _, hrequest⟩ => husb hrequest, fun ⟨_, _, hrequest⟩ => htimer hrequest⟩
  have hwake : t.wake = t := State.wake_of_running hrun
  have hgoesOn : boundary s = .execute t.wake.ageRequests :=
    boundary_goesOn hmoves hwdt (by rw [hrun]; rfl) (by rw [hwake]; exact State.acknowledged_none hnone.1 hnone.2)
  rw [hwake] at hgoesOn
  exact ⟨hgoesOn, rfl, rfl⟩

/-- Settles O19: RETI pops the address that the entry pushed, and the source's request flag alone stays changed. -/
theorem retiResumesInterruptedProgram : Obligations.RetiResumesInterruptedProgram := by
  intro s src hroom hemi
  obtain ⟨ages, hentry⟩ := enterInterrupt_of_room src hroom
  rw [exec_reti, hentry, returnFromInterrupt, returnWith_pops rfl]
  refine ⟨_, rfl, rfl, rfl, ?intc, rfl, rfl, rfl, rfl, rfl, rfl, rfl, rfl, fun _ => rfl, rfl, rfl, rfl, rfl, rfl⟩
  case intc =>
    cases src with
    | usb => rw [← hemi]; rfl
    | timer => rw [← hemi]; rfl

end Sys2Proof.Machine
end

section
/-! HALT and wake-up (60_exceptions.md R430 to R436). The environment's moves reach the agents alone
(`State.agentsOnly`): they cannot touch the CPU, and of the HALT state only the mark of a wake-up edge. -/

namespace Sys2Proof.Machine

/-- `t` differs from `s` at most in the environment, the mark of a wake-up edge and what the agents hold: the ports, the
timer, the request flags with INTC, the USB block and the watchdog. -/
def State.agentsOnly (s t : State) : Prop :=
  t = { s with
    env := t.env
    halt := { s.halt with edge := t.halt.edge }
    ports := t.ports
    timer := t.timer
    intc := t.intc
    usb := t.usb
    wdt := t.wdt }

namespace State.agentsOnly
variable {s t u : State}

theorem refl (s : State) : s.agentsOnly s := rfl

theorem trans (hst : s.agentsOnly t) (htu : t.agentsOnly u) : s.agentsOnly u := by
  unfold State.agentsOnly at hst
  rw [hst] at htu
  exact htu

theorem samplePads (p : Pads) (s : State) : s.agentsOnly (samplePads p s) := by
  obtain ⟨a, b, e, t, r, hs⟩ := samplePads_state p s
  rw [hs]
  rfl

theorem applyMove {m : EnvMove} (h : applyMove m s = .goesOn t) : s.agentsOnly t := by
  obtain ⟨u, c, r, rfl, -⟩ := applyMove_goesOn h
  rfl

theorem runMoves {ms : List EnvMove} (h : runMoves ms s = .execute t) : s.agentsOnly t := by
  induction ms generalizing s with
  | nil => cases h; exact .refl _
  | cons m ms ih =>
    cases hm : Machine.applyMove m s with
    | goesOn u =>
      simp only [Machine.runMoves, hm] at h
      exact (applyMove hm).trans (ih h)
    | resets k => simp [Machine.runMoves, hm] at h

theorem listedMoves (h : listedMoves s = .execute t) : s.agentsOnly t := by
  unfold Machine.listedMoves at h
  split at h
  · cases h; exact samplePads _ s
  · next rest _ =>
    have hinput : s.agentsOnly { s with env := { s.env with inputs := rest } } := rfl
    exact (hinput.trans (samplePads _ _)).trans (runMoves h)

theorem environmentMoves (h : environmentMoves s = .execute t) : s.agentsOnly t :=
  listedMoves (environmentMoves_execute.1 h).1

end State.agentsOnly

/-- A wake event as the statements word it (60_exceptions.md R431, R433 to R435). -/
theorem State.wakes_iff (s : State) :
    s.wakes = true ↔
      s.halt.edge = true ∨ (s.intc.usbf = true ∧ s.halt.usbf = false) ∨ (s.intc.tf = true ∧ s.halt.tf = false) := by
  simp only [State.wakes, Bool.or_eq_true, Bool.and_eq_true, Bool.not_eq_true', or_assoc]

/-- Settles O21: the moves reach the agents alone, and the boundary ends where they led. -/
theorem haltedMachineWaits : Obligations.HaltedMachineWaits := by
  intro s t hmoves hwdt hhalt hedge husb htimer
  have hagents : s.agentsOnly t := .environmentMoves hmoves
  have hhaltState : t.halt = { s.halt with edge := t.halt.edge } := congrArg State.halt hagents
  have hhalted : t.halt.halted = true := by rw [hhaltState]; exact hhalt
  have hsleep : ¬t.wakes = true := by
    rw [State.wakes_iff, hhaltState]
    rintro (h | ⟨hraised, h⟩ | ⟨hraised, h⟩)
    · exact absurd (h.symm.trans hedge) (by decide)
    · exact absurd (h.symm.trans (husb hraised)) (by decide)
    · exact absurd (h.symm.trans (htimer hraised)) (by decide)
  refine ⟨step_of_ends (boundary_waits hmoves hwdt hhalted (Bool.eq_false_iff.2 hsleep)), hhalted, ?_⟩
  rw [hagents]
  exact ⟨rfl, rfl, rfl, rfl, rfl, rfl, rfl, rfl, rfl, rfl, rfl, rfl, rfl⟩

/-- Settles O22: the woken machine acknowledges what the halted one would. -/
theorem wakeEventResumes : Obligations.WakeEventResumes := by
  intro s t hmoves hwdt hhalt hevent usbOk timerOk
  have hwakes : t.wakes = true := t.wakes_iff.2 hevent
  have hawake : (t.halt.halted && !t.wakes) = false := by rw [hwakes]; exact Bool.and_false _
  have husb : t.wake.due .usb ↔ usbOk := t.due_wake_iff .usb
  have htimer : t.wake.due .timer ↔ timerOk := t.due_wake_iff .timer
  refine ⟨t.wake.ageRequests, by rw [State.wake_of_halted hhalt]; rfl, fun hu => ?usb, fun ht hu => ?timer,
    fun hu ht => ?resume⟩
  case usb => exact step_of_ends (boundary_enters hmoves hwdt hawake (State.acknowledged_usb (husb.2 hu)))
  case timer =>
    exact step_of_ends (boundary_enters hmoves hwdt hawake
      (State.acknowledged_timer (htimer.2 ht) (mt husb.1 hu)))
  case resume =>
    exact boundary_goesOn hmoves hwdt hawake (State.acknowledged_none (mt husb.1 hu) (mt htimer.1 ht))

end Sys2Proof.Machine
end

section
/-! The edges of the port lines that wake the machine (60_exceptions.md R433) and the levels they are edges of
(62_ports_usb_ps2.md R502 to R506): each is settled bit by bit, from one lemma per mask. -/

namespace Sys2Proof.Machine

theorem byte_ne_zero_iff (v : Byte) : v ≠ 0x00#8 ↔ ∃ i, i < 8 ∧ v.getLsbD i = true := by
  constructor
  · intro h
    by_contra hnone
    refine h (BitVec.eq_of_getLsbD_eq fun i hi => ?_)
    rw [BitVec.getLsbD_zero]
    exact Bool.eq_false_iff.2 fun hbit => hnone ⟨i, hi, hbit⟩
  · rintro ⟨i, -, hbit⟩ rfl
    exact absurd hbit (by simp)

/-- PA2 and PA3 are the lines whose rising edge wakes as well (60_exceptions.md R433). -/
theorem getLsbD_eitherEdgeMask {i : Nat} (hi : i < 8) : (0x0C#8).getLsbD i = true ↔ i = 2 ∨ i = 3 := by
  interval_cases i <;> decide

/-- The lines of port B that exist (62_ports_usb_ps2.md R505). -/
theorem getLsbD_portBMask {i : Nat} (hi : i < 8) : portBMask.getLsbD i = true ↔ i = 2 ∨ i = 3 ∨ i = 4 ∨ i = 7 := by
  interval_cases i <;> decide

/-- The edge of one port A line. -/
theorem wakeEdge_portA_bit (selected old new : Byte) {i : Nat} (hi : i < 8) :
    (selected &&& ((old &&& ~~~new) ||| (~~~old &&& new &&& 0x0C#8))).getLsbD i = true ↔
      selected.getLsbD i = true ∧
        ((old.getLsbD i = true ∧ new.getLsbD i = false) ∨
          ((i = 2 ∨ i = 3) ∧ old.getLsbD i = false ∧ new.getLsbD i = true)) := by
  simp only [BitVec.getLsbD_and, BitVec.getLsbD_or, BitVec.getLsbD_not, hi, decide_true, Bool.true_and,
    Bool.and_eq_true, Bool.or_eq_true, Bool.not_eq_true', getLsbD_eitherEdgeMask hi]
  rw [and_comm (a := old.getLsbD i = false ∧ new.getLsbD i = true)]

theorem wakeEdge_iff (c : Config) (oldA newA oldB newB : Byte) :
    wakeEdge c oldA newA oldB newB = true ↔
      (∃ i, i < 8 ∧ c.wakeA.getLsbD i = true ∧
        ((oldA.getLsbD i = true ∧ newA.getLsbD i = false) ∨
          ((i = 2 ∨ i = 3) ∧ oldA.getLsbD i = false ∧ newA.getLsbD i = true))) ∨
      (c.wakeB4 = true ∧ oldB.getLsbD 4 = true ∧ newB.getLsbD 4 = false) ∨
      (c.wakeB7 = true ∧ oldB.getLsbD 7 = true ∧ newB.getLsbD 7 = false) := by
  simp only [wakeEdge, Bool.or_eq_true, Bool.and_eq_true, Bool.not_eq_true', or_assoc, and_assoc, bne_iff_ne,
    byte_ne_zero_iff]
  exact or_congr_left (exists_congr fun i => and_congr_right fun hi => wakeEdge_portA_bit _ _ _ hi)

/-- The level of an output line: its latch's for a CMOS one, while an NMOS one drives only 0 and a PMOS one only 1
(62_ports_usb_ps2.md R504, log 26). -/
def outputLevel (latch pad : Bool) : OutMode → Bool
  | .cmos => latch
  | .nmos => latch && pad
  | .pmos => latch || pad

theorem getLsbD_modeMask (c : Config) (m : OutMode) (i : Fin 8) :
    (modeMask c m).getLsbD i = (c.paOutMode[i] == m) := by
  rw [BitVec.getLsbD_eq_getElem i.isLt, modeMask, getElem_byteOfBits]
  fin_cases i <;> rfl

theorem State.getLsbD_padsA (s : State) (i : Fin 8) :
    s.padsA.getLsbD i =
      if s.ports.pac.getLsbD i = true then s.env.pads.pa.getLsbD i
      else outputLevel (s.ports.pa.getLsbD i) (s.env.pads.pa.getLsbD i) s.config.paOutMode[i] := by
  simp only [State.padsA, BitVec.getLsbD_and, BitVec.getLsbD_or, BitVec.getLsbD_not, getLsbD_modeMask, i.isLt,
    decide_true, Bool.true_and]
  cases s.ports.pac.getLsbD i with
  | true => simp
  | false =>
    cases s.config.paOutMode[i] with
    | cmos => cases s.ports.pa.getLsbD i <;> simp [outputLevel, beq_eq_decide]
    | nmos => simp [outputLevel, beq_eq_decide, Bool.and_comm]
    | pmos => simp [outputLevel, beq_eq_decide, Bool.or_comm]

theorem getLsbD_portRead (control pads latch : Byte) {i : Nat} (hi : i < 8) :
    (portRead control pads latch).getLsbD i = if control.getLsbD i = true then pads.getLsbD i else latch.getLsbD i := by
  simp only [portRead, BitVec.getLsbD_and, BitVec.getLsbD_or, BitVec.getLsbD_not, hi, decide_true, Bool.true_and]
  cases control.getLsbD i <;> simp

theorem State.getLsbD_padsB (s : State) {i : Nat} (hi : i < 8) :
    s.padsB.getLsbD i =
      if i = 2 ∨ i = 3 ∨ i = 4 ∨ i = 7 then
        if s.ports.pbc.getLsbD i = true then s.env.pads.pb.getLsbD i else s.ports.pb.getLsbD i
      else false := by
  rw [State.padsB, BitVec.getLsbD_and, getLsbD_portRead _ _ _ hi]
  by_cases hline : i = 2 ∨ i = 3 ∨ i = 4 ∨ i = 7
  · rw [if_pos hline, (getLsbD_portBMask hi).2 hline, Bool.and_true]
  · rw [if_neg hline, Bool.eq_false_iff.2 (mt (getLsbD_portBMask hi).1 hline), Bool.and_false]

/-! An edge of the TMR input reaches the timer and INTC alone. -/

@[simp] theorem State.timerEdge_halt (s : State) (old new : Bool) : (s.timerEdge old new).halt = s.halt := by
  obtain ⟨t, r, h⟩ := s.timerEdge_state old new
  rw [h]
  rfl

@[simp] theorem State.timerEdge_ports (s : State) (old new : Bool) : (s.timerEdge old new).ports = s.ports := by
  obtain ⟨t, r, h⟩ := s.timerEdge_state old new
  rw [h]
  rfl

@[simp] theorem State.timerEdge_env (s : State) (old new : Bool) : (s.timerEdge old new).env = s.env := by
  obtain ⟨t, r, h⟩ := s.timerEdge_state old new
  rw [h]
  rfl

/-- What a sampling records: the levels now, and the edge from the levels sampled before (60_exceptions.md R433). -/
theorem samplePads_records (p : Pads) (s : State) :
    let u : State := { s with env := { s.env with pads := p } }
    (samplePads p s).halt.edge = wakeEdge s.config s.ports.seenA u.padsA s.ports.seenB u.padsB ∧
      (samplePads p s).ports = { s.ports with seenA := u.padsA, seenB := u.padsB } ∧
      (samplePads p s).env = { s.env with pads := p } :=
  ⟨congrArg Halt.edge (State.timerEdge_halt _ _ _), State.timerEdge_ports _ _ _, State.timerEdge_env _ _ _⟩

/-- Settles O23: the edges line by line, the levels bit by bit, and the sampling at a boundary with a batch of moves and
without one. -/
theorem wakeUpEdges : Obligations.WakeUpEdges := by
  refine ⟨wakeEdge_iff, fun s p => ?sampling, fun s => ⟨fun hnone => ?unchanged, fun x rest hinput => ?batch⟩⟩
  case sampling =>
    obtain ⟨hedge, hports, henv⟩ := samplePads_records p s
    exact ⟨hedge, hports, henv, State.getLsbD_padsA _, fun _ => State.getLsbD_padsB _⟩
  case unchanged => rw [listedMoves, hnone]
  case batch => rw [listedMoves, hinput]

end Sys2Proof.Machine
end

section
/-! The ports and USC (62_ports_usb_ps2.md R501 to R516), bit by bit: a register that shows single bits is a list of
them (`getLsbD_byteOfBits`), and the two PS2 lines follow one formula while one interface is selected
(`Usb.lineBit_of_selected`). -/

namespace Sys2Proof.Machine

theorem getLsbD_byteOfBits (b7 b6 b5 b4 b3 b2 b1 b0 : Bool) {i : Nat} (hi : i < 8) :
    (byteOfBits b7 b6 b5 b4 b3 b2 b1 b0).getLsbD i = [b0, b1, b2, b3, b4, b5, b6, b7][i] := by
  rw [BitVec.getLsbD_eq_getElem hi, getElem_byteOfBits]

/-- A read of port B: the lines that exist, and a free value in the other bits (62_ports_usb_ps2.md R505, K11). -/
theorem getLsbD_withReservedB (v unknown : Byte) {i : Nat} (hi : i < 8) :
    (withReservedB v unknown).getLsbD i =
      if i = 2 ∨ i = 3 ∨ i = 4 ∨ i = 7 then v.getLsbD i else unknown.getLsbD i := by
  rw [withReservedB, BitVec.getLsbD_or, BitVec.getLsbD_and, BitVec.getLsbD_and, BitVec.getLsbD_not]
  split
  case isTrue h => simp [(getLsbD_portBMask hi).2 h]
  case isFalse h => rw [Bool.eq_false_iff.2 (mt (getLsbD_portBMask hi).1 h)]; simp [hi]

/-- Neither interface is selected where SELPS2 = SELUSB (62_ports_usb_ps2.md R518). -/
theorem Usb.noneSelected_iff (u : Usb) : u.noneSelected = true ↔ u.usr.getLsbD 4 = u.usr.getLsbD 5 := by
  rw [Usb.noneSelected, beq_iff_eq, eq_comm]

/-- What bit 4 or 5 of USC shows: the pad where the output bit lets it through, or a free value (62_ports_usb_ps2.md
R516, K12). -/
def Usb.lineBit (u : Usb) (unknown out pad : Bool) : Bool := if u.noneSelected then unknown else out && pad

theorem Usb.getLsbD_readUsc (u : Usb) (pads : Pads) (d : Byte) {i : Nat} (hi : i < 8) :
    (u.readUsc pads d).getLsbD i =
      [u.usc.suspend, d.getLsbD 1, u.usc.urstFlag, u.usc.resumeO,
        u.lineBit (d.getLsbD 4) u.usc.ps2Dao pads.data, u.lineBit (d.getLsbD 5) u.usc.ps2Cko pads.clk,
        d.getLsbD 6, d.getLsbD 7][i] :=
  getLsbD_byteOfBits _ _ _ _ _ _ _ _ hi

theorem Usb.lineBit_of_selected {u : Usb} (h : u.usr.getLsbD 4 ≠ u.usr.getLsbD 5) (unknown out pad : Bool) :
    u.lineBit unknown out pad = if out = false then false else pad := by
  rw [Usb.lineBit, if_neg (mt u.noneSelected_iff.1 h)]
  cases out <;> rfl

theorem Usb.lineBit_of_none {u : Usb} (h : u.usr.getLsbD 4 = u.usr.getLsbD 5) (unknown out pad : Bool) :
    u.lineBit unknown out pad = unknown := if_pos (u.noneSelected_iff.2 h)

/-- Settles O54: the ports line by line, USC bit by bit; the writes are the model's own. -/
theorem portAndUscAccess : Obligations.PortAndUscAccess := by
  intro s v b
  have hbit {i : Nat} (hi : i < 8) := s.usb.getLsbD_readUsc s.env.pads (s.drawByte 0) hi
  refine ⟨fun i hi => getLsbD_portRead _ _ _ hi, rfl, fun i hi => ?portB, rfl, rfl, rfl, rfl, rfl,
    hbit (by decide), hbit (by decide), hbit (by decide), hbit (by decide), hbit (by decide), hbit (by decide),
    fun hsel => ⟨?dataLine, ?clockLine⟩, fun hnone => ⟨?dataFree, ?clockFree⟩, rfl⟩
  case portB =>
    rw [memRead, getLsbD_withReservedB _ _ hi]
    exact ite_congr rfl (fun _ => getLsbD_portRead _ _ _ hi) fun _ => rfl
  case dataLine => exact (hbit (by decide)).trans (Usb.lineBit_of_selected hsel _ _ _)
  case clockLine => exact (hbit (by decide)).trans (Usb.lineBit_of_selected hsel _ _ _)
  case dataFree => exact (hbit (by decide)).trans (Usb.lineBit_of_none hnone _ _ _)
  case clockFree => exact (hbit (by decide)).trans (Usb.lineBit_of_none hnone _ _ _)

end Sys2Proof.Machine
end

section
/-! The timer/event counter and the watchdog's counting (61_timers_wdt.md R450 to R473). Counts below the overflow add
up (`State.timerCountN_of_lt`) and the next one reloads; what an edge or an instruction counts is said mode by mode
(`State.timerEdge_event`, `State.timerRun_timer` and the others), and the counting of an instruction is those counts,
the watchdog's and the waits', which do not meet (`countInstruction_timer`, `countInstruction_wdt`). -/

namespace Sys2Proof.Machine

/-! The registers and the counter. -/

theorem Timer.toNat_high (t : Timer) : t.high.toNat = t.cnt.toNat / 256 := by
  rw [Timer.high, toNat_field]
  have hcnt : t.cnt.toNat < 65536 := t.cnt.isLt
  omega

theorem Timer.latchLow_eq (t : Timer) : t.latchLow = { t with buf := BitVec.ofNat 8 t.cnt.toNat } := by
  have hlow : t.cnt.extractLsb' 0 8 = BitVec.ofNat 8 t.cnt.toNat := BitVec.eq_of_toNat_eq (by simp)
  rw [Timer.latchLow, hlow]

theorem Timer.writeHigh_eq (t : Timer) (v : Byte) :
    t.writeHigh v =
      { t with pre := v ++ t.buf, cnt := if t.ctl.ton = false then v ++ t.buf else t.cnt } := by
  rw [Timer.writeHigh]
  cases t.ctl.ton <;> rfl

/-- Settles O24: a write of TMRL and a read of it are the buffer's; TMRH is the counter's and the preload register's. -/
theorem timerRegisterAccess : Obligations.TimerRegisterAccess := fun s v =>
  ⟨rfl, congrArg s.setTimer (s.timer.writeHigh_eq v), s.timer.toNat_high, congrArg s.setTimer s.timer.latchLow_eq, rfl⟩

section
variable {s : State}

theorem State.timerCount_of_lt (h : s.timer.cnt.toNat < 65535) :
    s.timerCount = s.setTimer { s.timer with cnt := s.timer.cnt + 1#16 } := by
  refine if_neg fun hfull => ?_
  rw [hfull] at h
  exact absurd h (by decide)

/-- The count after FFFFH reloads and requests (61_timers_wdt.md R459). -/
theorem State.timerCount_of_full (h : s.timer.cnt = 0xFFFF#16) :
    s.timerCount = (s.setTimer { s.timer with cnt := s.timer.pre }).requestTimer := if_pos h

theorem State.timerCountN_of_lt {k : Nat} (h : s.timer.cnt.toNat + k < 65536) :
    State.timerCountN k s = s.setTimer { s.timer with cnt := s.timer.cnt + BitVec.ofNat 16 k } := by
  induction k generalizing s with
  | zero => rw [BitVec.add_zero]; rfl
  | succ k ih =>
    have hnext : (s.timer.cnt + 1#16).toNat = s.timer.cnt.toNat + 1 := by
      rw [BitVec.toNat_add]
      exact Nat.mod_eq_of_lt (by simp only [BitVec.toNat_ofNat]; omega)
    rw [State.timerCountN, State.timerCount_of_lt (by omega), ih (by rw [State.setTimer_timer, hnext]; omega)]
    simp only [State.setTimer_timer, BitVec.add_assoc, ← BitVec.ofNat_add, Nat.add_comm 1 k]
    rfl

theorem State.timerCountN_succ (k : Nat) (s : State) :
    State.timerCountN (k + 1) s = (State.timerCountN k s).timerCount := by
  induction k generalizing s with
  | zero => rfl
  | succ k ih => exact ih s.timerCount

/-- `65536 - TCNT` counts come to the overflow. -/
theorem State.timerCountN_overflow (s : State) :
    State.timerCountN (65536 - s.timer.cnt.toNat) s =
      (s.setTimer { s.timer with cnt := s.timer.pre }).requestTimer := by
  have hcnt : s.timer.cnt.toNat < 65536 := s.timer.cnt.isLt
  have hsplit : 65536 - s.timer.cnt.toNat = 65535 - s.timer.cnt.toNat + 1 := by omega
  have hfull : s.timer.cnt + BitVec.ofNat 16 (65535 - s.timer.cnt.toNat) = 0xFFFF#16 := by
    apply BitVec.eq_of_toNat_eq
    simp only [BitVec.toNat_add, BitVec.toNat_ofNat]
    omega
  rw [hsplit, State.timerCountN_succ, State.timerCountN_of_lt (by omega), hfull]
  exact State.timerCount_of_full rfl

end

/-- Settles O25: below the overflow the counts add up, and one more overflows. -/
theorem timerOverflowPeriod : Obligations.TimerOverflowPeriod := by
  intro s
  have hoverflow := s.timerCountN_overflow
  refine ⟨fun k hk => ?counting, congrArg State.timer hoverflow, congrArg State.intc hoverflow⟩
  case counting =>
    have hsum : s.timer.cnt.toNat + k < 65536 := by omega
    rw [State.timerCountN_of_lt hsum]
    refine ⟨?_, rfl⟩
    simp only [State.setTimer_timer, BitVec.toNat_add, BitVec.toNat_ofNat]
    omega

/-! The modes (61_timers_wdt.md R458). -/

section
variable {t : Tmrc}

theorem Tmrc.mode_event (h1 : t.tm1 = false) (h0 : t.tm0 = true) : t.mode = .event := by rw [Tmrc.mode, h1, h0]

theorem Tmrc.mode_timer (h1 : t.tm1 = true) (h0 : t.tm0 = false) : t.mode = .timer := by rw [Tmrc.mode, h1, h0]

theorem Tmrc.mode_pulseWidth (h1 : t.tm1 = true) (h0 : t.tm0 = true) : t.mode = .pulseWidth := by
  rw [Tmrc.mode, h1, h0]

/-- The modes that do not count instruction cycles. -/
theorem Tmrc.mode_of_tm1 (h1 : t.tm1 = false) : t.mode = .unused ∨ t.mode = .event := by
  cases h0 : t.tm0 with
  | false => exact .inl (by rw [Tmrc.mode, h1, h0])
  | true => exact .inr (Tmrc.mode_event h1 h0)

/-- The modes that do not look at the TMR input. -/
theorem Tmrc.mode_of_tm0 (h0 : t.tm0 = false) : t.mode = .unused ∨ t.mode = .timer := by
  cases h1 : t.tm1 with
  | false => exact .inl (by rw [Tmrc.mode, h1, h0])
  | true => exact .inr (Tmrc.mode_timer h1 h0)

end

/-! The edges of the TMR input. -/

theorem isEdge_iff (rising old new : Bool) :
    isEdge rising old new = true ↔ if rising = true then old = false ∧ new = true else old = true ∧ new = false := by
  cases rising <;> simp [isEdge]

/-- The edge that TE does not select: the one that ends a measurement (61_timers_wdt.md R463). -/
theorem isEdge_not_iff (te old new : Bool) :
    isEdge (!te) old new = true ↔ if te = true then old = true ∧ new = false else old = false ∧ new = true := by
  cases te <;> simp [isEdge]

/-- The edge counted in event count mode (61_timers_wdt.md R462). -/
theorem isEdge_event_iff (te old new : Bool) :
    isEdge (!te) old new = true ↔ if te = false then old = false ∧ new = true else old = true ∧ new = false := by
  cases te <;> simp [isEdge]

/-- What happens at an edge, and that nothing happens without it. -/
theorem at_edge {s t u : State} {edge : Bool} {P : Prop} (hedge : edge = true ↔ P) (h : t = if edge then u else s) :
    (P → t = u) ∧ (¬P → t = s) :=
  ⟨fun hp => h.trans (if_pos (hedge.2 hp)), fun hp => h.trans (if_neg (mt hedge.1 hp))⟩

section
variable {s : State} {old new : Bool}

theorem State.timerEdge_stopped (h : s.timer.ctl.ton = false) : s.timerEdge old new = s :=
  if_neg (Bool.eq_false_iff.1 h)

theorem State.timerEdge_deaf (h : s.timer.ctl.mode = .unused ∨ s.timer.ctl.mode = .timer) :
    s.timerEdge old new = s := by
  rcases h with h | h <;> simp only [State.timerEdge, h, ite_self]

theorem State.timerEdge_event (hton : s.timer.ctl.ton = true) (h : s.timer.ctl.mode = .event) :
    s.timerEdge old new = if isEdge (!s.timer.ctl.te) old new then s.timerCount else s := by
  rw [State.timerEdge, if_pos hton, h]

theorem State.timerEdge_halted (h : s.timer.ctl.mode = .pulseWidth) (hhalt : s.halt.halted = true) :
    s.timerEdge old new = s := by
  simp only [State.timerEdge, h, hhalt, if_true, ite_self]

/-- Before a measurement the edge that TE selects starts one (61_timers_wdt.md R463). -/
theorem State.timerEdge_armed (hton : s.timer.ctl.ton = true) (h : s.timer.ctl.mode = .pulseWidth)
    (hrun : s.halt.halted = false) (hpw : s.timer.pwRun = false) :
    s.timerEdge old new =
      if isEdge s.timer.ctl.te old new then s.setTimer { s.timer with pwRun := true } else s := by
  simp only [State.timerEdge, hton, h, hrun, hpw, if_true, Bool.false_eq_true, if_false]

/-- During a measurement the opposite edge ends it (61_timers_wdt.md R463). -/
theorem State.timerEdge_measuring (hton : s.timer.ctl.ton = true) (h : s.timer.ctl.mode = .pulseWidth)
    (hrun : s.halt.halted = false) (hpw : s.timer.pwRun = true) :
    s.timerEdge old new =
      if isEdge (!s.timer.ctl.te) old new then
        s.setTimer { s.timer with pwRun := false, ctl := { s.timer.ctl with ton := false } }
      else s := by
  simp only [State.timerEdge, hton, h, hrun, hpw, if_true, Bool.false_eq_true, if_false]

end

/-- Settles O27: the sampling of PA7, then mode by mode. -/
theorem timerInputEdges : Obligations.TimerInputEdges := by
  refine ⟨?pad, ?edge⟩
  case pad =>
    intro s p u
    unfold samplePads
    exact State.timerEdge_congr (s := s) (by rfl) (by rfl) (by rfl) _ _
  case edge =>
    intro s old new rises falls
    refine ⟨State.timerEdge_stopped, fun hton h1 h0 => ?event, fun hton h1 h0 hrun => ?pulseWidth,
      fun _ h1 h0 hhalt => State.timerEdge_halted (Tmrc.mode_pulseWidth h1 h0) hhalt,
      fun _ h0 => State.timerEdge_deaf (Tmrc.mode_of_tm0 h0)⟩
    case event => exact at_edge (isEdge_event_iff _ old new) (State.timerEdge_event hton (Tmrc.mode_event h1 h0))
    case pulseWidth =>
      have hmode := Tmrc.mode_pulseWidth h1 h0
      have harmed (hpw) := at_edge (isEdge_iff _ old new) (State.timerEdge_armed hton hmode hrun hpw)
      have hmeasuring (hpw) := at_edge (isEdge_not_iff _ old new) (State.timerEdge_measuring hton hmode hrun hpw)
      exact ⟨fun hpw => (harmed hpw).1, fun hpw => (harmed hpw).2, fun hpw => (hmeasuring hpw).1,
        fun hpw => (hmeasuring hpw).2⟩

/-! The counts of an instruction. -/

section
variable {s t : State}

/-- Counts read only the timer and INTC. -/
theorem State.timerCountN_congr (n : Nat) (ht : t.timer = s.timer) (hi : t.intc = s.intc) :
    (State.timerCountN n t).timer = (State.timerCountN n s).timer ∧
      (State.timerCountN n t).intc = (State.timerCountN n s).intc := by
  induction n generalizing s t with
  | zero => exact ⟨ht, hi⟩
  | succ n ih =>
    obtain ⟨htimer, hintc⟩ := State.timerCount_congr ht hi
    exact ih htimer hintc

/-- TON must be 1 before and after the instruction (61_timers_wdt.md R461). -/
theorem State.timerRun_stopped {tonBefore : Bool} (n : Nat) (h : tonBefore = false ∨ s.timer.ctl.ton = false) :
    s.timerRun tonBefore n = s :=
  if_neg (Bool.eq_false_iff.1 (Bool.and_eq_false_iff.2 h))

theorem State.timerRun_timer (n : Nat) (hton : s.timer.ctl.ton = true) (h : s.timer.ctl.mode = .timer) :
    s.timerRun true n = State.timerCountN n s := by
  simp only [State.timerRun, hton, h, Bool.and_self, if_true]

theorem State.timerRun_pulseWidth (n : Nat) (hton : s.timer.ctl.ton = true) (h : s.timer.ctl.mode = .pulseWidth) :
    s.timerRun true n = if s.timer.pwRun then State.timerCountN n s else s := by
  simp only [State.timerRun, hton, h, Bool.and_self, if_true]

theorem State.timerRun_idle (tonBefore : Bool) (n : Nat)
    (h : s.timer.ctl.mode = .unused ∨ s.timer.ctl.mode = .event) : s.timerRun tonBefore n = s := by
  rcases h with h | h <;> simp only [State.timerRun, h, ite_self]

end

/-- `t` has the timer and INTC of `s`. -/
def State.sameTimer (s t : State) : Prop := t.timer = s.timer ∧ t.intc = s.intc

/-- The watchdog's clocks pass the timer by. -/
theorem State.wdtTicks_sameTimer (s : State) (n : Nat) : s.sameTimer (s.wdtTicks n) := by
  rw [State.wdtTicks]
  split <;> exact ⟨rfl, rfl⟩

/-- What the counting of an instruction does to the timer. -/
theorem countInstruction_timer (before after : State) :
    (after.settleAges.timerRun before.timer.ctl.ton (after.cyc - before.cyc)).sameTimer
      (countInstruction before after) := by
  unfold countInstruction
  dsimp only
  split
  · exact State.wdtTicks_sameTimer _ _
  · exact ⟨rfl, rfl⟩

/-- Settles O26: the counting of an instruction runs the timer, mode by mode. -/
theorem instructionCyclesCounted : Obligations.InstructionCyclesCounted := by
  intro before after n hcyc t counts
  have hn : after.cyc - before.cyc = n := by omega
  have hrun : (after.settleAges.timerRun before.timer.ctl.ton n).sameTimer t := hn ▸ countInstruction_timer before after
  have hidle (h : after.settleAges.timerRun before.timer.ctl.ton n = after.settleAges) :
      t.timer = after.timer ∧ t.intc = after.intc := by rwa [h] at hrun
  have hcounts (h : after.settleAges.timerRun before.timer.ctl.ton n = State.timerCountN n after.settleAges) :
      t.timer = counts.timer ∧ t.intc = counts.intc := by
    obtain ⟨htimer, hintc⟩ := State.timerCountN_congr (s := after) (t := after.settleAges) n rfl rfl
    rw [h] at hrun
    exact ⟨hrun.1.trans htimer, hrun.2.trans hintc⟩
  refine ⟨fun hton => hidle (State.timerRun_stopped n hton), fun hbefore hafter => ?_⟩
  rw [hbefore] at hidle hcounts
  refine ⟨fun h1 h0 => ?timer, fun h1 h0 hpw => ?measuring, fun h1 h0 hpw => ?armed, fun h1 => ?event⟩
  case timer => exact hcounts (State.timerRun_timer n hafter (Tmrc.mode_timer h1 h0))
  case measuring =>
    exact hcounts ((State.timerRun_pulseWidth (s := after.settleAges) n hafter (Tmrc.mode_pulseWidth h1 h0)).trans
      (if_pos hpw))
  case armed =>
    exact hidle ((State.timerRun_pulseWidth (s := after.settleAges) n hafter (Tmrc.mode_pulseWidth h1 h0)).trans
      (if_neg (Bool.eq_false_iff.1 hpw)))
  case event => exact hidle (State.timerRun_idle true n (Tmrc.mode_of_tm1 h1))

/-! The watchdog. -/

section
variable {s : State}

theorem wdtTimedOut_iff (h : s.config.wdtEnable = true) : s.wdtTimedOut = true ↔ s.wdt.limit ≤ s.wdt.cnt := by
  rw [State.wdtTimedOut, h, Bool.true_and, decide_eq_true_eq]

theorem wdtTimedOut_disabled (h : s.config.wdtEnable = false) : s.wdtTimedOut = false := by
  rw [State.wdtTimedOut, h, Bool.false_and]

end

/-- 256 times the division ratio of each WS2 to WS0 (61_timers_wdt.md R471). -/
def wdtLimits : List (BitVec 3 × Nat) :=
  [(0b000#3, 256), (0b001#3, 512), (0b010#3, 1024), (0b011#3, 2048), (0b100#3, 4096), (0b101#3, 8192),
    (0b110#3, 16384), (0b111#3, 32768)]

theorem Wdt.limit_of_mem {w : Wdt} {n : Nat} (h : (w.ws, n) ∈ wdtLimits) : w.limit = n :=
  (by decide : ∀ p ∈ wdtLimits, 256 * 2 ^ p.1.toNat = p.2) _ h

/-- The watchdog with `n` more clocks counted if `counting`. -/
def Wdt.advance (w : Wdt) (counting : Prop) [Decidable counting] (n : Nat) : Wdt :=
  { w with cnt := if counting then w.cnt + n else w.cnt }

/-- A clock of the source in use advances an enabled watchdog alone (61_timers_wdt.md R472). -/
theorem State.wdtTicks_if (s : State) (src : WdtSource) (n : Nat) :
    (if s.config.wdtSrc = src then s.wdtTicks n else s) =
      s.setWdt (s.wdt.advance (s.config.wdtEnable = true ∧ s.config.wdtSrc = src) n) := by
  rw [State.wdtTicks, Wdt.advance]
  by_cases hsrc : s.config.wdtSrc = src
  · cases henable : s.config.wdtEnable <;> simp [hsrc, State.setWdt]
  · simp [hsrc, State.setWdt]

/-- What the counting of an instruction does to the watchdog. -/
theorem countInstruction_wdt (before after : State) :
    (countInstruction before after).wdt =
      after.wdt.advance (after.config.wdtEnable = true ∧ after.config.wdtSrc = .sys4) (after.cyc - before.cyc) := by
  obtain ⟨c, r, h⟩ := after.settleAges.timerRun_state before.timer.ctl.ton (after.cyc - before.cyc)
  unfold countInstruction
  dsimp only
  rw [State.wdtTicks_if, h]
  rfl

/-- Settles O28: the limits, the instruction clock and the oscillator's tick. -/
theorem watchdogCounts : Obligations.WatchdogCounts := by
  refine ⟨fun s => ⟨wdtTimedOut_disabled, fun henable limit hmem => ?limit⟩, fun before after n hcyc => ?instruction,
    fun s => ⟨_, congrArg MoveEffect.goesOn (s.wdtTicks_if .rc 1), rfl⟩⟩
  case limit => rw [wdtTimedOut_iff henable, Wdt.limit_of_mem hmem]
  case instruction =>
    have hn : after.cyc - before.cyc = n := by omega
    rw [countInstruction_wdt, hn]
    exact ⟨rfl, rfl, rfl⟩

end Sys2Proof.Machine
end

section
/-! The seven resets against the columns of 70_reset_and_hazards.md R610 to R612. A digit of a column is the model's own
constant, whatever was there before, so a column is read off kind by kind; the bits that a USB reset keeps are those
under a mask (`getLsbD_resetUsr`, `getLsbD_resetScc`). -/

namespace Sys2Proof.Machine

/-- Settles O8: nothing is stored, stacked, requested or waited for. -/
theorem resetMeetsInvariant : Obligations.ResetMeetsInvariant where
  ramCanonical := rfl
  ramPlace := rfl
  romCanonical := rfl
  romPlace := rfl
  stackDepth := Nat.zero_le 4
  fifo0Size := Nat.zero_le 8
  fifo1Size := Nat.zero_le 8
  portBLatch := rfl
  portBControl := rfl
  pipeFlags := rfl
  gapLength := Gap.none_atMost _
  haltFlags := nofun
  usbAge _ := rfl
  timerAge _ := rfl
  gapSettled := Gap.none_settled

/-- Bit 7 of MP0 and MP1 reads 1 (10_state.md R33). -/
theorem getLsbD_pointer (v : BitVec 7) : (1#1 ++ v : BitVec (1 + 7)).getLsbD 7 = true := by
  rw [BitVec.getLsbD_append]
  rfl

/-- Bit 7 of TBLH reads 0 (10_state.md R36). -/
theorem getLsbD_tblh (v : BitVec 7) : (0#1 ++ v : BitVec (1 + 7)).getLsbD 7 = false := by
  rw [BitVec.getLsbD_append]
  rfl

/-- With TO and PDF clear the upper half of STATUS reads 0 (10_state.md R39). -/
theorem Flags.toByte_upper {f : Flags} (hto : f.timeout = false) (hpdf : f.pdf = false) :
    f.toByte &&& 0xF0#8 = 0x00#8 := by
  apply byte_ext <;> simp [Flags.toByte, hto, hpdf]

/-- Without a request Ready is 0 (62_ports_usb_ps2.md R542). -/
theorem Usb.ready_of_idle {u : Usb} (h : u.misc.request = false) : u.ready = false := by
  rw [Usb.ready, h, Bool.false_and]

/-- MISC with nothing stored reads 0. -/
theorem Usb.misc_toByte_cleared {u : Usb} (h : u.misc = Misc.ofByte 0x00#8) : u.misc.toByte u.ready = 0x00#8 := by
  rw [Usb.ready_of_idle (by rw [h]; rfl), h]
  rfl

/-- The digits of PB and PBC on the lines that exist (62_ports_usb_ps2.md R505). -/
theorem portBMask_digits : portBMask &&& portBMask = 0x9C#8 := by decide

/-- Row TMRC of 70_reset_and_hazards.md R610. -/
theorem tmrc_digits : Tmrc.toByte { te := true, ton := false, tm0 := false, tm1 := false } = 0x08#8 := by decide

/-- WDTS reads 87H after a reset other than the warm one (10_state.md R38, 70_reset_and_hazards.md R610). -/
theorem memRead_wdts_reset {s : State} (h : s.wdt.ws = 0b111#3) : (memRead .wdts s).1 = 0x87#8 := by
  rw [memRead, h]
  rfl

/-- The registers that the POR column names are those of the machine right after power-on, but for the bits that it
leaves unknown: the ALU flags, the counts of the timer, the sampled levels and the contents of the FIFOs. -/
structure State.PoweredOn (s : State) : Prop where
  pc : s.pc = State.reset.pc
  stk : s.stk = State.reset.stk
  timeout : s.flags.timeout = State.reset.flags.timeout
  pdf : s.flags.pdf = State.reset.flags.pdf
  intc : s.intc = State.reset.intc
  timer : s.timer.ctl = State.reset.timer.ctl ∧ s.timer.pwRun = State.reset.timer.pwRun
  wdt : s.wdt = State.reset.wdt
  ports : s.ports = { State.reset.ports with seenA := s.ports.seenA, seenB := s.ports.seenB }
  usb : s.usb = { State.reset.usb with fifo0 := s.usb.fifo0, fifo1 := s.usb.fifo1 }
  halted : s.halt.halted = State.reset.halt.halted

theorem State.PoweredOn.digits {s : State} (h : s.PoweredOn) : s.PowerOnDigits where
  pc := h.pc
  stk := h.stk
  pointers := ⟨getLsbD_pointer _, getLsbD_pointer _⟩
  tblh := getLsbD_tblh _
  flags := ⟨h.timeout, h.pdf⟩
  status := Flags.toByte_upper h.timeout h.pdf
  intc := by rw [h.intc]; rfl
  tmrc := by rw [h.timer.1]; exact tmrc_digits
  pwRun := h.timer.2
  wdts := memRead_wdts_reset (by rw [h.wdt]; rfl)
  wdt := by rw [h.wdt]; exact ⟨rfl, rfl⟩
  portA := by rw [h.ports]; exact ⟨rfl, rfl⟩
  portB := by rw [h.ports]; exact ⟨portBMask_digits, portBMask_digits⟩
  usc := by rw [h.usb]; exact ⟨rfl, rfl, rfl, rfl, rfl, rfl⟩
  usr := by rw [h.usb]; rfl
  scc := by rw [h.usb]; rfl
  pipeCtrl := by rw [h.usb]; rfl
  awr := by rw [h.usb]; rfl
  stall := by rw [h.usb]; rfl
  pipe := by rw [h.usb]; rfl
  sies := by rw [h.usb]; rfl
  misc := Usb.misc_toByte_cleared (by rw [h.usb]; rfl)
  halted := h.halted

theorem poweredOn_reset : State.reset.PoweredOn :=
  ⟨rfl, rfl, rfl, rfl, rfl, ⟨rfl, rfl⟩, rfl, rfl, rfl, rfl⟩

theorem poweredOn_applyReset (s : State) : (applyReset .por s).PoweredOn :=
  ⟨rfl, rfl, rfl, rfl, rfl, ⟨rfl, rfl⟩, rfl, rfl, rfl, rfl⟩

/-- Settles O10: the reset state and any later power-on agree in the registers that the column names. -/
theorem powerOnValues : Obligations.PowerOnValues :=
  ⟨poweredOn_reset.digits, fun s => (poweredOn_applyReset s).digits⟩

/-- Settles O11: of the model's own fields the ages and the waits are the ones that the warm reset clears. -/
theorem warmResetKeepsTheRest : Obligations.WarmResetKeepsTheRest := fun _ =>
  ⟨{ usb := 0, timer := 0 }, Gap.none, rfl⟩

/-- Settles O12: row STATUS, kind by kind. -/
theorem flagsAfterReset : Obligations.FlagsAfterReset := fun _ => ⟨rfl, rfl, rfl, rfl, rfl, rfl, rfl⟩

/-- Row RAM with `RAM_AFTER_RESET` = survives (70_reset_and_hazards.md R611). -/
theorem resetRam_survives {k : ResetKind} {s : State} (hk : k ≠ .por) (h : s.config.ramAfterReset = .survives) :
    resetRam k s = s.ram := by
  cases k
  case por => exact absurd rfl hk
  case wdtHalt => rfl
  all_goals simp only [resetRam, h]

/-- Row INTC, with the USBF that a USB reset sets (70_reset_and_hazards.md R610, R612). -/
theorem resetIntc_toByte {k : ResetKind} (hk : k ≠ .wdtHalt) (i : Intc) :
    (resetIntc k i).toByte = if k = .usbRun ∨ k = .usbHalt then 0x10#8 else 0x00#8 := by
  cases k
  case wdtHalt => exact absurd rfl hk
  case usbRun | usbHalt =>
    rw [if_pos (by decide)]
    exact (by decide : Intc.toByte ⟨false, false, false, true, false⟩ = 0x10#8)
  all_goals
    rw [if_neg (by decide)]
    exact (by decide : Intc.toByte ⟨false, false, false, false, false⟩ = 0x00#8)

/-- Settles O13: the five kinds share every column here but USBF's. -/
theorem chipResetColumns : Obligations.ChipResetColumns := by
  intro k s hpor hwarm t
  have hintc : t.intc.toByte = if k = .usbRun ∨ k = .usbHalt then 0x10#8 else 0x00#8 := resetIntc_toByte hwarm s.intc
  have hram : s.config.ramAfterReset = .survives → t.ram = s.ram := resetRam_survives hpor
  cases k
  case por => exact absurd rfl hpor
  case wdtHalt => exact absurd rfl hwarm
  all_goals exact ⟨rfl, rfl, rfl, rfl, rfl, rfl, rfl, rfl, rfl, rfl, tmrc_digits, rfl, memRead_wdts_reset rfl, rfl, rfl,
    rfl, rfl, portBMask_digits, portBMask_digits, rfl, hintc, hram, fun _ hb => congrArg (Option.getD · _) hb,
    fun _ hv => congrArg (Option.getD · _) hv⟩

/-! The USB registers after a USB reset (70_reset_and_hazards.md R610). -/

/-- Row USR: `u1uu 0000`. -/
theorem getLsbD_resetUsr (v : Byte) {i : Nat} (hi : i < 8) :
    ((v &&& 0xB0#8) ||| 0x40#8).getLsbD i =
      if i = 4 ∨ i = 5 ∨ i = 7 then v.getLsbD i else decide (i = 6) := by
  interval_cases i <;> simp

/-- Row SCC: `uu00 u000`. -/
theorem getLsbD_resetScc (v : Byte) {i : Nat} (hi : i < 8) :
    (v &&& 0xC8#8).getLsbD i = if i = 3 ∨ i = 6 ∨ i = 7 then v.getLsbD i else false := by
  interval_cases i <;> simp

/-- The columns that the RES resets and the USB resets share. -/
theorem resetUsb_cleared {k : ResetKind} (hwdt : k.isWdt = false) (s : State) :
    let u := resetUsb k s
    u.awr = 0x00#8 ∧ u.pipe = 0x00#8 ∧ u.stall = 0x00#8 ∧ u.sies = 0x00#8 ∧ u.pipeCtrl = 0x03#8 ∧
      u.misc.toByte u.ready = 0x00#8 ∧ u.usc.suspend = false ∧ u.usc.rmotWk = false ∧ u.usc.resumeO = false ∧
      u.usc.ps2Dao = true ∧ u.usc.ps2Cko = true := by
  cases k
  case wdtRun | wdtHalt => cases hwdt
  all_goals exact ⟨rfl, rfl, rfl, rfl, rfl, Usb.misc_toByte_cleared rfl, rfl, rfl, rfl, rfl, rfl⟩

/-- A USB reset keeps which interface is selected. -/
theorem resetUsr_usb_selection (v : Byte) :
    ((v &&& 0xB0#8) ||| 0x40#8).getLsbD 4 = v.getLsbD 4 ∧ ((v &&& 0xB0#8) ||| 0x40#8).getLsbD 5 = v.getLsbD 5 :=
  ⟨(getLsbD_resetUsr v (by decide)).trans rfl, (getLsbD_resetUsr v (by decide)).trans rfl⟩

/-- USC bits 4 and 5 show lines that are low (62_ports_usb_ps2.md R516, log 18). -/
theorem readUsc_lines_low {u : Usb} {pads : Pads} (d : Byte) (h : u.usr.getLsbD 4 ≠ u.usr.getLsbD 5)
    (hdata : pads.data = false) (hclk : pads.clk = false) :
    (u.readUsc pads d).getLsbD 4 = false ∧ (u.readUsc pads d).getLsbD 5 = false := by
  rw [u.getLsbD_readUsc pads d (by decide), u.getLsbD_readUsc pads d (by decide), hdata, hclk]
  exact ⟨(Usb.lineBit_of_selected h _ _ _).trans (ite_self _), (Usb.lineBit_of_selected h _ _ _).trans (ite_self _)⟩

/-- Settles O14: the watchdog resets keep the whole block, the others have their columns. -/
theorem usbRegistersAfterReset : Obligations.UsbRegistersAfterReset := by
  refine fun s => ⟨rfl, rfl, fun k hk => ?columns, fun k hk => ?res, fun k hk => ?usb⟩
  case columns => exact resetUsb_cleared (by rcases hk with rfl | rfl | rfl | rfl <;> rfl) s
  case res => rcases hk with rfl | rfl <;> exact ⟨rfl, rfl, rfl, rfl, rfl⟩
  case usb =>
    have hlow {u : Usb} (hu : u.usr = (s.usb.usr &&& 0xB0#8) ||| 0x40#8) (d : Byte)
        (hsel : s.usb.usr.getLsbD 4 ≠ s.usb.usr.getLsbD 5) :=
      readUsc_lines_low (u := u) (pads := { s.env.pads with data := false, clk := false }) d
        (by rwa [hu, (resetUsr_usb_selection _).1, (resetUsr_usb_selection _).2]) rfl rfl
    rcases hk with rfl | rfl <;>
      exact ⟨fun i hi => getLsbD_resetUsr _ hi, fun i hi => getLsbD_resetScc _ hi, rfl, rfl, rfl, rfl, hlow rfl _⟩

end Sys2Proof.Machine
end

section
/-! How a boundary ends or goes on (70_reset_and_hazards.md R645, 61_timers_wdt.md R473): a reset among the
environment's moves, SUSPEND2's, the watchdog's, or none of them and the instruction at PC. A list of moves is run piece
by piece (`runMoves_append`), and no move but a reset reaches the halted state or the configuration
(`State.agentsOnly`), so the kind of a reset is that of the state before the boundary. -/

namespace Sys2Proof.Machine

/-- The increment of PC wraps at the end of program memory (10_state.md R22). -/
theorem toNat_pc_succ (a : ProgAddr) : (a + 1#11).toNat = (a.toNat + 1) % 2048 := BitVec.toNat_add a 1#11

section
variable {s t u : State} {i : Instr}

theorem fetch_of_decode (h : t.config.decode (t.romWord t.pc) = .ok i) :
    fetch t = .ok (i, t.setPc (t.pc + 1#11)) := by
  rw [fetch, h]

theorem step_of_execute (hb : boundary s = .execute t) (hdecode : t.config.decode (t.romWord t.pc) = .ok i) :
    step s = andThen (exec i (t.setPc (t.pc + 1#11))) fun v =>
      .next (countInstruction (t.setPc (t.pc + 1#11)) v) := by
  rw [step, hb]
  dsimp only
  rw [runInstruction, fetch_of_decode hdecode]

end

/-- Settles O5: the step is the fetched instruction's execution with its cycles counted, or its refusal. -/
theorem stepRunsDecodedInstruction : Obligations.StepRunsDecodedInstruction := by
  intro s t i hb hdecode
  refine ⟨toNat_pc_succ t.pc, fun u hu => ?next, fun r hr => ?refused⟩
  case next => rw [step_of_execute hb hdecode, hu, andThen]
  case refused => rw [step_of_execute hb hdecode, hr, andThen]

/-! A boundary at which nothing happens. -/

/-- Levels that stay give no edge (60_exceptions.md R433). -/
theorem wakeEdge_same (c : Config) (a b : Byte) : wakeEdge c a a b b = false := by
  simp [wakeEdge]

theorem isEdge_same (rising level : Bool) : isEdge rising level level = false := by
  cases rising <;> cases level <;> rfl

theorem State.timerEdge_same (s : State) (level : Bool) : s.timerEdge level level = s := by
  unfold State.timerEdge
  simp only [isEdge_same, Bool.false_eq_true, if_false, ite_self]
  cases s.timer.ctl.mode <;> exact ite_self s

/-- The machine without the mark of a wake-up edge. -/
def State.clearEdge (s : State) : State := s.setHalt { s.halt with edge := false }

/-- Sampling the pads at levels that stay only clears the mark of the last wake-up edge. -/
theorem samplePads_same {s : State} (ha : s.ports.seenA = s.padsA) (hb : s.ports.seenB = s.padsB) :
    samplePads s.env.pads s = s.clearEdge := by
  unfold samplePads
  dsimp only
  rw [← ha, ← hb, wakeEdge_same, State.timerEdge_same]
  rfl

/-- Settles O6: the sampling, no move, no SUSPEND2 reset, no time-out, no acknowledged interrupt. -/
theorem quietBoundaryExecutes : Obligations.QuietBoundaryExecutes := by
  intro s hinputs hseenA hseenB hwdt hsuspend hrun hemi
  have hlisted : listedMoves s = .execute s.clearEdge := by
    rw [listedMoves, hinputs]
    exact congrArg _ (samplePads_same hseenA hseenB)
  have hnoReset : s.clearEdge.suspend2Resets = false := Bool.and_eq_false_iff.2 hsuspend
  have hmoves : environmentMoves s = .execute s.clearEdge := environmentMoves_execute.2 ⟨hlisted, hnoReset⟩
  have hawake : (s.clearEdge.halt.halted && !s.clearEdge.wakes) = false := Bool.and_eq_false_iff.2 (.inl hrun)
  have hwake : s.clearEdge.wake = s.clearEdge := State.wake_of_running hrun
  have hmasked : ¬s.intc.emi = true := Bool.eq_false_iff.1 hemi
  have hack : s.clearEdge.wake.ageRequests.acknowledged = none := by
    rw [hwake]
    exact State.acknowledged_none (fun ⟨h, _⟩ => hmasked h) (fun ⟨h, _⟩ => hmasked h)
  have hexecutes := boundary_goesOn hmoves hwdt hawake hack
  rwa [hwake] at hexecutes

/-! The resets that end a step. -/

section
variable {s t u : State}

/-- A reset in step 1 of R645 ends the whole step, whatever interrupt is pending. -/
theorem step_of_moves_end (h : environmentMoves s = .ends t) : step s = .next t :=
  step_of_ends (by rw [boundary, h])

theorem environmentMoves_of_ends (h : listedMoves s = .ends t) : environmentMoves s = .ends t := by
  rw [environmentMoves, h]

theorem environmentMoves_of_suspend2 (h : listedMoves s = .execute t) (hreset : t.suspend2Resets = true) :
    environmentMoves s = .ends (applyReset (t.kindNow .resRun .resHalt) t) := by
  rw [environmentMoves, h]
  exact if_pos hreset

/-- The watchdog's time-out comes before any interrupt (61_timers_wdt.md R473, D29). -/
theorem step_of_timeOut (hmoves : environmentMoves s = .execute t) (hwdt : t.wdtTimedOut = true) :
    step s = .next (applyReset (t.kindNow .wdtRun .wdtHalt) t) := by
  refine step_of_ends ?_
  rw [boundary, hmoves]
  exact if_pos hwdt

theorem State.kindNow_running (h : s.halt.halted = false) (running halted : ResetKind) :
    s.kindNow running halted = running := if_neg (Bool.eq_false_iff.1 h)

theorem State.kindNow_halted (h : s.halt.halted = true) (running halted : ResetKind) :
    s.kindNow running halted = halted := if_pos h

end

/-- Settles O15: WDTn or WDTh by the run state, each read off its columns. -/
theorem watchdogTimeOutResets : Obligations.WatchdogTimeOutResets := by
  intro s t hmoves henable hlimit
  have hstep := step_of_timeOut hmoves ((wdtTimedOut_iff henable).2 hlimit)
  cases hhalt : t.halt.halted with
  | false =>
    rw [State.kindNow_running hhalt] at hstep
    exact ⟨_, hstep, rfl, rfl, rfl, rfl, fun _ => ⟨rfl, rfl⟩, nofun⟩
  | true =>
    rw [State.kindNow_halted hhalt] at hstep
    exact ⟨_, hstep, rfl, rfl, rfl, rfl, nofun, fun _ => ⟨rfl, rfl⟩⟩

/-! The environment's moves, piece by piece. -/

section
variable {s t u : State} {m : EnvMove} {before later : List EnvMove}

theorem runMoves_goesOn (h : applyMove m s = .goesOn t) : runMoves (m :: later) s = runMoves later t := by
  rw [runMoves, h]

theorem runMoves_resets {k : ResetKind} (h : applyMove m s = .resets k) :
    runMoves (m :: later) s = .ends ((applyReset k s).keepMoves later) := by
  rw [runMoves, h]

/-- Moves that go on hand their state to the moves after them. -/
theorem runMoves_append (h : runMoves before s = .execute t) : runMoves (before ++ later) s = runMoves later t := by
  induction before generalizing s with
  | nil => cases h; rfl
  | cons m before ih =>
    cases hm : applyMove m s with
    | goesOn u =>
      rw [runMoves_goesOn hm] at h
      rw [List.cons_append, runMoves_goesOn hm, ih h]
    | resets k =>
      rw [runMoves_resets hm] at h
      cases h

theorem State.agentsOnly.halted_eq (h : s.agentsOnly t) : t.halt.halted = s.halt.halted := by
  unfold State.agentsOnly at h
  rw [h]

theorem State.agentsOnly.config_eq (h : s.agentsOnly t) : t.config = s.config := by
  unfold State.agentsOnly at h
  rw [h]

theorem State.agentsOnly.kindNow_eq (h : s.agentsOnly t) (running halted : ResetKind) :
    t.kindNow running halted = if s.halt.halted then halted else running := by
  rw [State.kindNow, h.halted_eq]

theorem Usb.usbSelected_iff (u : Usb) :
    u.usbSelected = true ↔ u.usr.getLsbD 5 = true ∧ u.usr.getLsbD 4 = false := by
  rw [Usb.usbSelected, Bool.and_eq_true, Bool.not_eq_true']

theorem listedMoves_cons {input : Input} {rest : List Input} (h : s.env.inputs = input :: rest) :
    listedMoves s =
      runMoves input.moves (samplePads input.pads { s with env := { s.env with inputs := rest } }) := by
  rw [listedMoves, h]

end

/-- Settles O16: the moves before lead to `t`, and `applyMove` says of the next one whether it is a reset and of which
kind; SUSPEND2's reset follows all moves. -/
theorem environmentResets : Obligations.EnvironmentResets := by
  refine ⟨?moves, fun s t hlisted hlvr hsuspend => ?suspend2⟩
  case moves =>
    intro s t p before m later rest hinputs hbefore resetBy goesOn selected
    have hsampled : s.agentsOnly (samplePads p { s with env := { s.env with inputs := rest } }) :=
      .trans (t := { s with env := { s.env with inputs := rest } }) rfl (.samplePads p _)
    have hagents : s.agentsOnly t := hsampled.trans (.runMoves hbefore)
    have hlisted : listedMoves s = runMoves (m :: later) t := (listedMoves_cons hinputs).trans (runMoves_append hbefore)
    have hresets : ∀ {k}, applyMove m t = .resets k → resetBy k := fun hk =>
      step_of_moves_end (environmentMoves_of_ends (hlisted.trans (runMoves_resets hk)))
    have hgoesOn : applyMove m t = .goesOn t → goesOn := fun h => hlisted.trans (runMoves_goesOn h)
    have hselected : t.usb.usbSelected = true ↔ selected := t.usb.usbSelected_iff
    rw [← hagents.kindNow_eq, ← hagents.kindNow_eq, ← hagents.config_eq]
    refine ⟨?powerOn, ?resLow, ?lowVoltage, ?lvrDisabled, ?usbReset, ?notSelected⟩
    case powerOn => rintro rfl; exact hresets rfl
    case resLow => rintro rfl; exact hresets rfl
    case lowVoltage => rintro rfl hlvr; exact hresets (if_pos hlvr)
    case lvrDisabled => rintro rfl hlvr; exact hgoesOn (if_neg (Bool.eq_false_iff.1 hlvr))
    case usbReset => rintro rfl hsel; exact hresets (if_pos (hselected.2 hsel))
    case notSelected => rintro rfl hsel; exact hgoesOn (if_neg (mt hselected.1 hsel))
  case suspend2 =>
    have hagents : s.agentsOnly t := .listedMoves hlisted
    rw [← hagents.kindNow_eq]
    exact step_of_moves_end (environmentMoves_of_suspend2 hlisted (Bool.and_eq_true_iff.2 ⟨hlvr, hsuspend⟩))

end Sys2Proof.Machine
end

section
/-! The FIFOs and the request protocol (62_ports_usb_ps2.md R541 to R546). With a request open Ready is the selected
FIFO's own readiness (`Usb.ready_of_read`, `Usb.ready_of_write`); a FIFO register's read and write are said once for
each case of request, Ready and wait; and a write of MISC is its commit, the new bits and what Clear empties
(`Usb.writeMisc_eq`). -/

namespace Sys2Proof.Machine

theorem Usb.openFor_iff {u : Usb} {k : Endpoint} {w : Bool} :
    u.openFor k w = true ↔ u.misc.request = true ∧ u.misc.selected = some k ∧ u.misc.tx = w := by
  simp only [Usb.openFor, Bool.and_eq_true, beq_iff_eq, and_assoc]

section
variable {u : Usb} {k : Endpoint}

theorem Usb.ready_of_unselected (h : u.misc.sel1 = true) : u.ready = false := by
  have hnone : u.misc.selected = none := by
    rw [← Option.not_isSome_iff_eq_none, Misc.selected_isSome, h]
    decide
  rw [Usb.ready, hnone, Bool.and_false]

theorem Usb.ready_of_read (h : u.openFor k false = true) : u.ready = (u.fifo k).readable := by
  obtain ⟨hrequest, hselected, htx⟩ := Usb.openFor_iff.1 h
  simp only [Usb.ready, hrequest, hselected, htx, Bool.true_and, Bool.false_eq_true, if_false]

theorem Usb.ready_of_write (h : u.openFor k true = true) : u.ready = (u.fifo k).writable := by
  obtain ⟨hrequest, hselected, htx⟩ := Usb.openFor_iff.1 h
  simp only [Usb.ready, hrequest, hselected, htx, Bool.true_and, if_true]

end

theorem Fifo.readable_iff (f : Fifo) :
    f.readable = true ↔ f.mark = .fromHost ∧ f.busy = false ∧ f.bytes ≠ [] := by
  simp only [Fifo.readable, Bool.and_eq_true, beq_iff_eq, Bool.not_eq_true', and_assoc, List.isEmpty_eq_false_iff]

/-- The MCU may write a FIFO only when it has room and the host leaves it alone. -/
theorem Fifo.room_of_writable {f : Fifo} (h : f.writable = true) : f.busy = false ∧ f.bytes.length < 8 := by
  obtain ⟨hbusy, hroom⟩ := Bool.and_eq_true_iff.1 h
  refine ⟨Bool.not_eq_true' _ ▸ hbusy, ?_⟩
  cases hmark : f.mark <;> rw [hmark] at hroom
  case fromHost => rw [List.isEmpty_iff.1 hroom]; decide
  case filling => exact of_decide_eq_true hroom
  case handed => cases hroom

theorem Misc.getLsbD_toByte_ready (m : Misc) (ready : Bool) : (m.toByte ready).getLsbD 6 = ready :=
  getLsbD_byteOfBits _ _ _ _ _ _ _ _ (by decide)

section
variable {s : State}

theorem State.readMisc_exact
    (h : s.usb.misc.request = false ∨ s.usb.misc.sel1 = true ∨ s.gap.request.left = 0) :
    s.readMisc = (s.usb.misc.toByte s.usb.ready, s) := by
  refine if_neg ?_
  rw [Misc.selected_isSome]
  rcases h with h | h | h <;> simp [h]

theorem State.readMisc_waiting {k : Endpoint} {w : Bool} (hopen : s.usb.openFor k w = true)
    (hgap : 0 < s.gap.request.left) : s.readMisc = (s.drawByte 0, s.addDraws 1) := by
  obtain ⟨hrequest, hselected, -⟩ := Usb.openFor_iff.1 hopen
  exact if_pos (by simp [hrequest, hselected, hgap])

end

/-- Settles O57: Ready by the direction of the request, and the read of MISC outside and inside the wait. -/
theorem readyBit : Obligations.ReadyBit := by
  intro s
  refine ⟨Usb.ready_of_idle, Usb.ready_of_unselected, fun k hopen => ?read, fun k hopen hready => ?write,
    fun h => ?exact, fun k w hopen hgap => State.readMisc_waiting hopen hgap⟩
  case read => rw [Usb.ready_of_read hopen, Fifo.readable_iff]
  case write => exact Fifo.room_of_writable (Usb.ready_of_write hopen ▸ hready)
  case exact =>
    rw [memRead, State.readMisc_exact h]
    exact ⟨Misc.getLsbD_toByte_ready _ _, rfl⟩

/-! The FIFO registers. -/

@[simp] theorem Usb.misc_setFifo (u : Usb) (k : Endpoint) (f : Fifo) : (u.setFifo k f).misc = u.misc := by
  cases k <;> rfl

theorem Gap.readTooSoon_iff (g : Gap) : g.readTooSoon = true ↔ 0 < g.request.left ∨ 0 < g.read.left := by
  rw [Gap.readTooSoon, Bool.or_eq_true, decide_eq_true_eq, decide_eq_true_eq]

theorem Gap.writeTooSoon_iff (g : Gap) : g.writeTooSoon = true ↔ 0 < g.request.left ∨ 0 < g.write.left := by
  rw [Gap.writeTooSoon, Bool.or_eq_true, decide_eq_true_eq, decide_eq_true_eq]

section
variable {s : State} {k : Endpoint}

theorem State.readFifo_closed (h : s.usb.openFor k false = false) : s.readFifo k = (s.drawByte 0, s.addDraws 1) := by
  rw [State.readFifo, h]
  rfl

theorem State.readFifo_unready (hopen : s.usb.openFor k false = true) (h : (s.usb.fifo k).readable = false) :
    s.readFifo k = (s.drawByte 0, (s.setUsb (s.usb.readAction k)).addDraws 1) := by
  rw [State.readFifo, hopen]
  dsimp only
  rw [h]
  rfl

theorem State.readFifo_inTime (hopen : s.usb.openFor k false = true) (h : (s.usb.fifo k).readable = true)
    (hgap : s.gap.readTooSoon = false) :
    s.readFifo k = ((s.usb.fifo k).bytes.headD 0x00#8,
      (s.setUsb ((s.usb.readAction k).setFifo k (s.usb.fifo k).pop)).beginReadGap) := by
  rw [State.readFifo, hopen]
  dsimp only
  rw [h, hgap]
  rfl

/-- Whether the byte was taken is free (log 22). -/
theorem State.readFifo_tooSoon (hopen : s.usb.openFor k false = true) (h : (s.usb.fifo k).readable = true)
    (hgap : s.gap.readTooSoon = true) :
    ∃ taken : Bool, s.readFifo k = (s.drawByte 0,
      ((s.setUsb (if taken then (s.usb.readAction k).setFifo k (s.usb.fifo k).pop
        else s.usb.readAction k)).beginReadGap).addDraws 2) := by
  rw [State.readFifo, hopen]
  dsimp only
  rw [h, hgap]
  exact ⟨_, rfl⟩

/-- The read of a ready FIFO starts the wait of its direction, in time or not. -/
theorem State.readFifo_gap (hopen : s.usb.openFor k false = true) (h : (s.usb.fifo k).readable = true) :
    (s.readFifo k).2.gap = { s.gap with read := startGap s.config } := by
  cases hgap : s.gap.readTooSoon with
  | false => rw [State.readFifo_inTime hopen h hgap]; rfl
  | true =>
    obtain ⟨taken, hread⟩ := State.readFifo_tooSoon hopen h hgap
    rw [hread]
    rfl

/-- A read under an open read request is the read action that clears Len0, endpoint 0's (62_ports_usb_ps2.md R545). -/
theorem State.readFifo_misc (hopen : s.usb.openFor k false = true) :
    (s.readFifo k).2.usb.misc = (s.usb.readAction k).misc := by
  cases h : (s.usb.fifo k).readable with
  | false => rw [State.readFifo_unready hopen h]; rfl
  | true =>
    cases hgap : s.gap.readTooSoon with
    | false => rw [State.readFifo_inTime hopen h hgap]; exact Usb.misc_setFifo _ _ _
    | true =>
      obtain ⟨taken, hread⟩ := State.readFifo_tooSoon hopen h hgap
      rw [hread]
      cases taken with
      | false => rfl
      | true => exact Usb.misc_setFifo _ _ _

theorem State.readFifo_ep1_misc (s : State) : (s.readFifo .ep1).2.usb.misc = s.usb.misc := by
  obtain ⟨u, g, n, h, hu, -⟩ := s.readFifo_state .ep1
  rw [h]
  rcases hu with rfl | rfl | rfl <;> rfl

theorem State.writeFifo_lost (v : Byte) (h : s.usb.openFor k true = false ∨ (s.usb.fifo k).writable = false) :
    s.writeFifo k v = s :=
  if_neg (Bool.eq_false_iff.1 (Bool.and_eq_false_iff.2 h))

theorem State.writeFifo_ready (v : Byte) (hopen : s.usb.openFor k true = true) (h : (s.usb.fifo k).writable = true) :
    s.writeFifo k v =
      (if s.gap.writeTooSoon then s
        else s.setUsb (s.usb.setFifo k ((s.usb.fifo k).append v))).beginWriteGap :=
  if_pos (Bool.and_eq_true_iff.2 ⟨hopen, h⟩)

end

/-- A read of a ready FIFO in time takes the byte that it returns. -/
theorem readFifo_takes {s : State} {k : Endpoint} (hopen : s.usb.openFor k false = true)
    (h : (s.usb.fifo k).readable = true) (hgap : s.gap.readTooSoon = false) :
    ∃ b rest, (s.usb.fifo k).bytes = b :: rest ∧ (s.readFifo k).1 = b ∧
      ((s.readFifo k).2.usb.fifo k).bytes = rest := by
  obtain ⟨-, -, hne⟩ := (Fifo.readable_iff _).1 h
  obtain ⟨b, rest, hbytes⟩ := List.exists_cons_of_ne_nil hne
  have hpop : (s.readFifo k).2.usb.fifo k = (s.usb.fifo k).pop := by
    rw [State.readFifo_inTime hopen h hgap]
    exact Usb.fifo_setFifo_same _ _ _
  refine ⟨b, rest, hbytes, ?_, ?_⟩
  · rw [State.readFifo_inTime hopen h hgap, hbytes]
    rfl
  · rw [hpop, Fifo.pop, hbytes]
    rfl

/-- A write of a ready FIFO in time appends its byte; too soon it is lost, and either way it starts the wait. -/
theorem writeFifo_appends {s : State} {k : Endpoint} (v : Byte) (hopen : s.usb.openFor k true = true)
    (h : (s.usb.fifo k).writable = true) :
    (s.gap.writeTooSoon = false → ((s.writeFifo k v).usb.fifo k).bytes = (s.usb.fifo k).bytes ++ [v]) ∧
      (s.gap.writeTooSoon = true → (s.writeFifo k v).usb = s.usb) ∧
      (s.writeFifo k v).gap = { s.gap with write := startGap s.config } := by
  rw [State.writeFifo_ready v hopen h]
  refine ⟨fun hgap => ?_, fun hgap => ?_, ?_⟩
  · rw [hgap]
    exact congrArg Fifo.bytes (Usb.fifo_setFifo_same _ _ _)
  · rw [hgap]
    rfl
  · split <;> rfl

/-! The waits. -/

theorem fifoGap_eq (c : Config) : fifoGap c = if c.fSys = .mhz12 then 6 else 3 := by
  rw [fifoGap]
  cases c.fSys <;> rfl

theorem State.writeMisc_gap (s : State) (v : Byte) :
    (s.writeMisc v).gap =
      if s.usb.misc.request = false ∧ v.getLsbD 0 = true then
        { s.gap with request := startGap s.config }
      else s.gap := by
  rw [State.writeMisc]
  cases s.usb.misc.request <;> cases v.getLsbD 0 <;> rfl

/-- The counting of an instruction lets its cycles pass in each wait. -/
theorem countInstruction_gap (before after : State) :
    (countInstruction before after).gap = after.gap.pass (after.cyc - before.cyc) := by
  obtain ⟨c, r, h⟩ := after.settleAges.timerRun_state before.timer.ctl.ton (after.cyc - before.cyc)
  unfold countInstruction
  dsimp only
  rw [State.wdtTicks_if, h]
  rfl

/-- Settles O56: a read and a write by request, Ready and wait, then what starts, shortens and ends a wait. -/
theorem fifoReadAndWrite : Obligations.FifoReadAndWrite := by
  intro s k v
  refine ⟨fun hopen hready => ?read, fun hopen hready => ?write, State.readFifo_closed, fun hopen hready => ?unready,
    fun h => ?lost, State.readFifo_misc, State.readFifo_ep1_misc s, fifoGap_eq _, State.writeMisc_gap s v,
    fun before n hcyc => ?passing, fun _ => rfl, fun hhalt => ?waking, fun _ => rfl⟩
  case read =>
    rw [Usb.ready_of_read hopen] at hready
    refine ⟨fun hrequest hgap => ?_, fun hgap => ?_, State.readFifo_gap hopen hready⟩
    · have hinTime : ¬s.gap.readTooSoon = true := mt s.gap.readTooSoon_iff.1 (by omega)
      exact readFifo_takes hopen hready (Bool.eq_false_iff.2 hinTime)
    · obtain ⟨taken, hread⟩ := State.readFifo_tooSoon hopen hready (s.gap.readTooSoon_iff.2 hgap)
      exact congrArg Prod.fst hread
  case write =>
    rw [Usb.ready_of_write hopen] at hready
    obtain ⟨happends, hlost, hwait⟩ := writeFifo_appends v hopen hready
    refine ⟨fun hrequest hgap => happends (Bool.eq_false_iff.2 ?_), fun hgap => hlost (s.gap.writeTooSoon_iff.2 hgap),
      hwait⟩
    exact mt s.gap.writeTooSoon_iff.1 (by omega)
  case unready =>
    rw [Usb.ready_of_read hopen] at hready
    rw [memRead, State.readFifo_unready hopen hready]
    exact ⟨rfl, s.usb.fifo_readAction k k⟩
  case lost =>
    refine State.writeFifo_lost v ?_
    cases hopen : s.usb.openFor k true with
    | false => exact .inl rfl
    | true => exact .inr ((Usb.ready_of_write hopen).symm.trans (h.resolve_left (by rw [hopen]; decide)))
  case passing =>
    have hn : s.cyc - before.cyc = n := by omega
    rw [countInstruction_gap, hn]
    exact ⟨⟨rfl, rfl⟩, ⟨rfl, rfl⟩, ⟨rfl, rfl⟩⟩
  case waking => rw [State.wake_of_halted hhalt]; rfl

/-! The writes of MISC. -/

/-- A write of MISC with Request standing before and after flips Tx (62_ports_usb_ps2.md R541). -/
def Usb.flipsTx (u : Usb) (v : Byte) : Bool := u.misc.request && v.getLsbD 0 && (u.misc.tx != v.getLsbD 1)

/-- The block with the FIFO of the request that stood committed, if the write of `v` flips Tx. -/
def Usb.committed (u : Usb) (v : Byte) : Usb :=
  if u.flipsTx v then u.mapFifo u.misc.selected (·.commit u.misc.tx) else u

theorem Usb.writeMisc_eq (u : Usb) (v : Byte) :
    u.writeMisc v =
      if v.getLsbD 0 && v.getLsbD 2 then
        ({ u.committed v with misc := Misc.ofByte v } : Usb).mapFifo (Misc.ofByte v).selected Fifo.emptied
      else { u.committed v with misc := Misc.ofByte v } := rfl

theorem State.writeMisc_usb (s : State) (v : Byte) : (s.writeMisc v).usb = s.usb.writeMisc v := by
  rw [State.writeMisc]
  split <;> rfl

theorem Usb.fifo_withMisc (u : Usb) (m : Misc) (k : Endpoint) : ({ u with misc := m } : Usb).fifo k = u.fifo k := by
  cases k <;> rfl

section
variable {u : Usb} {v : Byte} {k : Endpoint}

theorem Usb.committed_of_flip (hopen : u.openFor k (!v.getLsbD 1) = true) (hv : v.getLsbD 0 = true) :
    (u.committed v).fifo k = (u.fifo k).commit (!v.getLsbD 1) := by
  obtain ⟨hrequest, hselected, htx⟩ := Usb.openFor_iff.1 hopen
  have hflip : u.flipsTx v = true := by
    rw [Usb.flipsTx, hrequest, hv, htx]
    cases v.getLsbD 1 <;> rfl
  rw [Usb.committed, if_pos hflip, hselected, htx]
  exact Usb.fifo_setFifo_same _ _ _

theorem Usb.committed_of_noFlip (h : u.flipsTx v = false) : u.committed v = u := if_neg (Bool.eq_false_iff.1 h)

/-- Without Clear, or without Request, a write of MISC only commits. -/
theorem Usb.fifo_writeMisc_kept (h : v.getLsbD 0 = false ∨ v.getLsbD 2 = false) :
    (u.writeMisc v).fifo k = (u.committed v).fifo k := by
  rw [Usb.writeMisc_eq, if_neg (Bool.eq_false_iff.1 (Bool.and_eq_false_iff.2 h))]
  exact Usb.fifo_withMisc _ _ _

/-- Clear with a request empties the FIFO selected and leaves the other (62_ports_usb_ps2.md R545). -/
theorem Usb.fifo_writeMisc_clear (hv : v.getLsbD 0 = true) (hclear : v.getLsbD 2 = true) {e : Endpoint}
    (he : (Misc.ofByte v).selected = some e) :
    (u.writeMisc v).fifo k = if k = e then ((u.committed v).fifo k).emptied else (u.committed v).fifo k := by
  rw [Usb.writeMisc_eq, if_pos (Bool.and_eq_true_iff.2 ⟨hv, hclear⟩), he, Usb.mapFifo]
  split
  case isTrue h => rw [h, Usb.fifo_setFifo_same, Usb.fifo_withMisc]
  case isFalse h => rw [Usb.fifo_setFifo_ne h, Usb.fifo_withMisc]

end

theorem Misc.ofByte_selected {v : Byte} (h : v.getLsbD 4 = false) :
    (Misc.ofByte v).selected = some (if v.getLsbD 3 = true then .ep1 else .ep0) := by
  unfold Misc.selected Misc.ofByte
  dsimp only
  rw [h]
  cases v.getLsbD 3 <;> rfl

/-- A commit of a write request keeps what is being filled and drops anything else (log 21). -/
theorem Fifo.commit_write (f : Fifo) :
    (f.commit true).mark = .handed ∧ (f.mark = .filling → (f.commit true).bytes = f.bytes) ∧
      (f.mark ≠ .filling → (f.commit true).bytes = []) :=
  ⟨rfl, fun h => if_pos h, fun h => if_neg h⟩

/-- Settles O58: the commit of the request that stood, and the FIFO that Clear selects. -/
theorem commitHandsOver : Obligations.CommitHandsOver := by
  intro s k v
  have husb : (storeLoc .misc v s).usb = s.usb.writeMisc v := s.writeMisc_usb v
  rw [husb]
  refine ⟨fun hv hkeep => ?commit, fun hv hclear hsel => ?clear, fun hv => ?closed⟩
  case commit =>
    rw [Usb.fifo_writeMisc_kept (.inr hkeep)]
    have hwrite (hopen : s.usb.openFor k true = true) (htx : v.getLsbD 1 = false) :
        (s.usb.committed v).fifo k = (s.usb.fifo k).commit true := by
      rw [Usb.committed_of_flip (by rwa [htx]) hv, htx]
      rfl
    have hread (hopen : s.usb.openFor k false = true) (htx : v.getLsbD 1 = true) :
        (s.usb.committed v).fifo k = (s.usb.fifo k).commit false := by
      rw [Usb.committed_of_flip (by rwa [htx]) hv, htx]
      rfl
    obtain ⟨hmark, hfilling, hother⟩ := (s.usb.fifo k).commit_write
    refine ⟨fun hopen htx h => ?_, fun hopen htx h => ?_, fun hopen htx => ?_⟩
    · rw [hwrite hopen htx]
      exact ⟨hfilling h, hmark⟩
    · rw [hwrite hopen htx]
      exact ⟨hother h, hmark⟩
    · rw [hread hopen htx]
      exact ⟨rfl, rfl⟩
  case clear =>
    have hcleared := Usb.fifo_writeMisc_clear (u := s.usb) (k := k) hv hclear (Misc.ofByte_selected hsel)
    refine ⟨fun hk => ?_, fun hk hno => ?_⟩
    · rw [hcleared, if_pos hk]
      rfl
    · have hnoFlip : s.usb.flipsTx v = false := by
        rw [Usb.flipsTx]
        rcases hno with h | h <;> simp [h]
      rw [hcleared, if_neg hk, Usb.committed_of_noFlip hnoFlip]
  case closed =>
    have hnoFlip : s.usb.flipsTx v = false := by rw [Usb.flipsTx, hv, Bool.and_false, Bool.false_and]
    rw [Usb.fifo_writeMisc_kept (.inl hv), Usb.committed_of_noFlip hnoFlip]

end Sys2Proof.Machine
end

section
/-! The host's side of the USB block (62_ports_usb_ps2.md R511 to R520, R545 to R549). An access is taken, and then the
block is the packet's effect with the endpoint's flags raised or not, or it changes nothing (`State.usbAccess_raises`,
`State.usbAccess_silent`, `State.usbAccess_command`, `State.usbAccess_ignored`); each packet's marks are single bits
(`getLsbD_setBitTo`). -/

namespace Sys2Proof.Machine

theorem getLsbD_setBitTo (v : Byte) (i : BitVec 3) (b : Bool) {j : Nat} (hj : j < 8) :
    (setBitTo v i b).getLsbD j = if j = i.toNat then b else v.getLsbD j := by
  cases b with
  | false => exact clearBit_bits i v j hj
  | true => exact setBit_bits i v j hj

theorem getLsbD_setBitTo_same (v : Byte) (i : BitVec 3) (b : Bool) : (setBitTo v i b).getLsbD i.toNat = b :=
  (getLsbD_setBitTo v i b i.isLt).trans (if_pos rfl)

theorem getLsbD_setBitTo_ne (v : Byte) {i : BitVec 3} (b : Bool) {j : Nat} (hj : j < 8) (hne : j ≠ i.toNat) :
    (setBitTo v i b).getLsbD j = v.getLsbD j :=
  (getLsbD_setBitTo v i b hj).trans (if_neg hne)

/-- The marks OUT and IN of SIES, bits 2 and 3, written one after the other. -/
theorem getLsbD_setOutIn (v : Byte) (out inToken : Bool) :
    (setBitTo (setBitTo v 2#3 out) 3#3 inToken).getLsbD 2 = out ∧
      (setBitTo (setBitTo v 2#3 out) 3#3 inToken).getLsbD 3 = inToken :=
  ⟨(getLsbD_setBitTo_ne _ _ (by decide) (by decide)).trans (getLsbD_setBitTo_same _ 2#3 _),
    getLsbD_setBitTo_same _ 3#3 _⟩

/-- Setting a bit raises it and no other. -/
theorem getLsbD_setBitTo_true (v : Byte) (i : BitVec 3) {j : Nat} (hj : j < 8) :
    (setBitTo v i true).getLsbD j = (decide (j = i.toNat) || v.getLsbD j) := by
  rw [getLsbD_setBitTo v i true hj]
  by_cases h : j = i.toNat <;> simp [h]

/-! What a packet leaves in the block (62_ports_usb_ps2.md R545, R548, R549). -/

/-- The FIFO with a packet of the host's in it, at most eight bytes (62_ports_usb_ps2.md R540). -/
def Fifo.filledByHost (f : Fifo) (bytes : List Byte) : Fifo := { f with bytes := bytes.take 8, mark := .fromHost }

/-- The block with the marks of a packet of endpoint `k`: its FIFO, SIES, MISC and the address the SIE answers to. -/
def Usb.marked (u : Usb) (k : Endpoint) (f : Fifo) (sies : Byte) (misc : Misc) (devAddr : BitVec 7) : Usb :=
  { u.setFifo k f with sies := sies, misc := misc, devAddr := devAddr }

section
variable (u : Usb) (k : Endpoint) (f : Fifo) (x : Byte) (m : Misc) (d : BitVec 7)

theorem Usb.marked_flags : (u.marked k f x m d).usr = u.usr ∧ (u.marked k f x m d).pipe = u.pipe := by
  cases k <;> exact ⟨rfl, rfl⟩

theorem Usb.marked_fifo_other {j : Endpoint} (hj : j ≠ k) : (u.marked k f x m d).fifo j = u.fifo j := by
  rw [← Usb.fifo_setFifo_ne hj u f]
  cases j <;> rfl

end

section
variable (u : Usb) (k : Endpoint)

theorem Usb.packetEffect_setup (bytes : List Byte) :
    u.packetEffect k (.setup bytes) =
      u.marked k ((u.fifo k).filledByHost bytes) (setBitTo (setBitTo u.sies 2#3 false) 3#3 false)
        (u.misc.onControl k { u.misc with setCmd := true, len0 := false }) u.devAddr := by
  cases k <;> rfl

theorem Usb.packetEffect_out (b : Byte) (bytes : List Byte) :
    u.packetEffect k (.out (b :: bytes)) =
      u.marked k ((u.fifo k).filledByHost (b :: bytes)) (setBitTo (setBitTo u.sies 2#3 true) 3#3 false) u.misc
        u.devAddr := by
  cases k <;> rfl

/-- An OUT packet without bytes, however the environment lists it. -/
theorem Usb.packetEffect_zero {p : Packet} (hp : p = .outZero ∨ p = .out []) :
    u.packetEffect k p =
      u.marked k ((u.fifo k).filledByHost []) (setBitTo u.sies 3#3 false)
        (u.misc.onControl k { u.misc with len0 := true }) u.devAddr := by
  rcases hp with rfl | rfl <;> cases k <;> rfl

/-- With Adr_set = 1 an IN clears it and takes the address (62_ports_usb_ps2.md R548). -/
theorem Usb.packetEffect_inTaken :
    u.packetEffect k .inTaken =
      u.marked k ((u.fifo k).filledByHost [])
        (setBitTo (if u.sies.getLsbD 0 then setBitTo u.sies 0#3 false else u.sies) 3#3 true) u.misc
        (if u.sies.getLsbD 0 then u.awr.extractLsb' 1 7 else u.devAddr) := by
  have hsies : (u.hostFills k []).sies = u.sies := by cases k <;> rfl
  rw [Usb.packetEffect, hsies]
  cases u.sies.getLsbD 0 <;> cases k <;> rfl

theorem Usb.packetEffect_naked :
    u.packetEffect k .naked = u.marked k (u.fifo k) (setBitTo u.sies 4#3 true) u.misc u.devAddr := by
  cases k <;> rfl

/-- A packet leaves marks and nothing else, in MISC for the control endpoint alone. -/
theorem Usb.packetEffect_state (p : Packet) :
    ∃ f x m d, u.packetEffect k p = u.marked k f x m d ∧ (k = .ep1 → m = u.misc) := by
  have hcontrol : ∀ new, k = .ep1 → u.misc.onControl k new = u.misc := fun _ hk => by rw [hk]; rfl
  cases p with
  | setup bytes => exact ⟨_, _, _, _, u.packetEffect_setup k bytes, hcontrol _⟩
  | out bytes =>
    cases bytes with
    | nil => exact ⟨_, _, _, _, u.packetEffect_zero k (.inr rfl), hcontrol _⟩
    | cons b bytes => exact ⟨_, _, _, _, u.packetEffect_out k b bytes, fun _ => rfl⟩
  | outZero => exact ⟨_, _, _, _, u.packetEffect_zero k (.inl rfl), hcontrol _⟩
  | inTaken => exact ⟨_, _, _, _, u.packetEffect_inTaken k, fun _ => rfl⟩
  | naked => exact ⟨_, _, _, _, u.packetEffect_naked k, fun _ => rfl⟩

end

section
variable {u : Usb} {k : Endpoint}

theorem Usb.packetEffect_flags (p : Packet) :
    (u.packetEffect k p).usr = u.usr ∧ (u.packetEffect k p).pipe = u.pipe := by
  obtain ⟨f, x, m, d, h, -⟩ := u.packetEffect_state k p
  rw [h]
  exact u.marked_flags ..

theorem Usb.packetEffect_misc_ep1 (p : Packet) : (u.packetEffect .ep1 p).misc = u.misc := by
  obtain ⟨f, x, m, d, h, hm⟩ := u.packetEffect_state .ep1 p
  rw [h]
  exact hm rfl

theorem Usb.packetEffect_fifo_other {j : Endpoint} (hj : j ≠ k) (p : Packet) :
    (u.packetEffect k p).fifo j = u.fifo j := by
  obtain ⟨f, x, m, d, h, -⟩ := u.packetEffect_state k p
  rw [h, u.marked_fifo_other k f x m d hj]

end

/-! What an access comes to. -/

theorem Packet.isCommand_eq_false {p : Packet} {k : Endpoint} (h : k = .ep1 ∨ ∀ bytes, p ≠ .setup bytes) :
    p.isCommand k = false := by
  cases p with
  | setup bytes =>
    cases k with
    | ep0 => exact absurd rfl (h.resolve_left nofun bytes)
    | ep1 => rfl
  | out bytes => rfl
  | outZero => rfl
  | inTaken => rfl
  | naked => rfl

section
variable {s : State} {k : Endpoint} {p : Packet}

theorem State.usbAccess_ignored (hflag : s.usb.usr.getLsbD k.bit.toNat = true) (h : p.isCommand k = false) :
    s.usbAccess k p = s := by
  rw [State.usbAccess, if_pos hflag, h]
  rfl

/-- "Nothing is missed by the SETUP command from the host" (62_ports_usb_ps2.md R545). -/
theorem State.usbAccess_command (hflag : s.usb.usr.getLsbD k.bit.toNat = true) (h : p.isCommand k = true) :
    s.usbAccess k p = s.setUsb (s.usb.packetEffect k p) := by
  rw [State.usbAccess, if_pos hflag, if_pos h]

theorem State.usbAccess_raises (hflag : s.usb.usr.getLsbD k.bit.toNat = false)
    (h : p ≠ .naked ∨ s.usb.sies.getLsbD 7 = false) :
    s.usbAccess k p = (s.setUsb (s.usb.packetEffect k p)).raiseEndpoint k := by
  rw [State.usbAccess, if_neg (Bool.eq_false_iff.1 hflag)]
  refine if_neg (Bool.eq_false_iff.1 ?_)
  rw [Bool.and_eq_false_iff, decide_eq_false_iff_not]
  exact h

/-- A NAKed token is not reported while MNI = 1 (62_ports_usb_ps2.md R549). -/
theorem State.usbAccess_silent (hflag : s.usb.usr.getLsbD k.bit.toNat = false) (hmni : s.usb.sies.getLsbD 7 = true) :
    s.usbAccess k .naked = s.setUsb (s.usb.packetEffect k .naked) := by
  rw [State.usbAccess, if_neg (Bool.eq_false_iff.1 hflag)]
  exact if_pos (Bool.and_eq_true_iff.2 ⟨decide_eq_true rfl, hmni⟩)

/-- An access that is taken leaves the packet's effect, beside the endpoint's flags. -/
theorem State.usbAccess_taken (h : s.usb.usr.getLsbD k.bit.toNat = false ∨ p.isCommand k = true) :
    ∃ x y, (s.usbAccess k p).usb = { s.usb.packetEffect k p with usr := x, pipe := y } := by
  cases hflag : s.usb.usr.getLsbD k.bit.toNat with
  | true =>
    rw [State.usbAccess_command hflag (h.resolve_left (by rw [hflag]; decide))]
    exact ⟨_, _, rfl⟩
  | false =>
    by_cases hsilent : p = .naked ∧ s.usb.sies.getLsbD 7 = true
    · obtain ⟨rfl, hmni⟩ := hsilent
      rw [State.usbAccess_silent hflag hmni]
      exact ⟨_, _, rfl⟩
    · rw [State.usbAccess_raises hflag ((not_and_or.1 hsilent).imp_right Bool.eq_false_iff.2)]
      exact ⟨_, _, rfl⟩

/-- The marks of a packet that is taken, whatever the access does to the endpoint's flags. -/
theorem State.usbAccess_marked {f : Fifo} {x : Byte} {m : Misc} {d : BitVec 7}
    (h : s.usb.usr.getLsbD k.bit.toNat = false ∨ p.isCommand k = true)
    (heffect : s.usb.packetEffect k p = s.usb.marked k f x m d) :
    (s.usbAccess k p).usb.fifo k = f ∧ (s.usbAccess k p).usb.sies = x ∧ (s.usbAccess k p).usb.misc = m ∧
      (s.usbAccess k p).usb.devAddr = d := by
  obtain ⟨usr, pipe, hu⟩ := State.usbAccess_taken h
  rw [hu, heffect]
  exact ⟨by cases k <;> rfl, rfl, rfl, rfl⟩

/-- What no packet changes, no access changes. -/
theorem State.usbAccess_keeps {α : Type} {f : Usb → α} (hf : f (s.usb.packetEffect k p) = f s.usb)
    (hflags : ∀ (u : Usb) x y, f { u with usr := x, pipe := y } = f u) : f (s.usbAccess k p).usb = f s.usb := by
  by_cases h : s.usb.usr.getLsbD k.bit.toNat = false ∨ p.isCommand k = true
  · obtain ⟨x, y, hu⟩ := State.usbAccess_taken h
    rw [hu, hflags, hf]
  · obtain ⟨hflag, hcommand⟩ := not_or.1 h
    rw [State.usbAccess_ignored (Bool.eq_true_of_not_eq_false hflag) (Bool.eq_false_iff.2 hcommand)]

/-- What raises an endpoint's event (62_ports_usb_ps2.md R517): EPkIF and PIPE bit `k` beside those that stood. -/
theorem State.raiseEndpoint_flags (s : State) (k : Endpoint) {i : Nat} (hi : i < 8) :
    (s.raiseEndpoint k).usb.usr.getLsbD i = (decide (i = k.bit.toNat) || s.usb.usr.getLsbD i) ∧
      (s.raiseEndpoint k).usb.pipe.getLsbD i = (decide (i = k.bit.toNat) || s.usb.pipe.getLsbD i) :=
  ⟨getLsbD_setBitTo_true _ _ hi, getLsbD_setBitTo_true _ _ hi⟩

end

/-- The bits of EPkIF are bits 1 and 0 of USR (62_ports_usb_ps2.md R517). -/
theorem getLsbD_endpointMask (k : Endpoint) : (0x03#8).getLsbD k.bit.toNat = true := by
  cases k <;> decide

theorem Endpoint.bit_lt (k : Endpoint) : k.bit.toNat < 8 := k.bit.isLt

/-- The program clears PIPE bit `k` with EPkIF (62_ports_usb_ps2.md R547). -/
theorem Usb.writeUsr_clears {u : Usb} {v : Byte} {k : Endpoint} (hflag : u.usr.getLsbD k.bit.toNat = true)
    (hv : v.getLsbD k.bit.toNat = false) : (u.writeUsr v).pipe.getLsbD k.bit.toNat = false := by
  simp only [Usb.writeUsr, BitVec.getLsbD_and, BitVec.getLsbD_not, k.bit_lt, hflag, hv, getLsbD_endpointMask,
    decide_true, Bool.not_false, Bool.and_self, Bool.not_true, Bool.and_false]

/-- Settles O55: whether the access is taken, what it raises, and the marks packet by packet. -/
theorem endpointAccess : Obligations.EndpointAccess := by
  intro s k p n t
  refine ⟨fun hflag h => State.usbAccess_ignored hflag (Packet.isCommand_eq_false h), fun hflag => ?pending,
    fun hflag h => ?raised, ?silent, ?ep1, ?setup, fun hflag => ?packets, fun j hj => ?other,
    fun v => ⟨rfl, rfl, Usb.writeUsr_clears⟩⟩
  case pending =>
    cases h : p.isCommand k with
    | false =>
      have ht : t = s := State.usbAccess_ignored hflag h
      rw [ht]
      exact ⟨rfl, rfl, rfl⟩
    | true =>
      have ht : t = s.setUsb (s.usb.packetEffect k p) := State.usbAccess_command hflag h
      rw [ht]
      exact ⟨rfl, Usb.packetEffect_flags p⟩
  case raised =>
    have ht : t = (s.setUsb (s.usb.packetEffect k p)).raiseEndpoint k := State.usbAccess_raises hflag h
    obtain ⟨husr, hpipe⟩ := Usb.packetEffect_flags (u := s.usb) (k := k) p
    rw [ht, ← husr, ← hpipe]
    exact ⟨rfl, fun i hi => State.raiseEndpoint_flags _ k hi⟩
  case silent =>
    rintro hflag rfl hmni
    have ht : t = s.setUsb (s.usb.packetEffect k .naked) := State.usbAccess_silent hflag hmni
    rw [ht]
    exact ⟨rfl, rfl⟩
  case ep1 =>
    rintro rfl
    exact State.usbAccess_keeps (f := Usb.misc) (Usb.packetEffect_misc_ep1 p) fun _ _ _ => rfl
  case setup =>
    rintro bytes rfl rfl
    obtain ⟨hfifo, hsies, hmisc, -⟩ :=
      State.usbAccess_marked (s := s) (k := .ep0) (.inr rfl) (s.usb.packetEffect_setup .ep0 bytes)
    obtain ⟨hout, hin⟩ := getLsbD_setOutIn s.usb.sies false false
    rw [hfifo, hsies]
    exact ⟨hmisc, hout, hin, rfl, rfl⟩
  case packets =>
    refine ⟨?out, fun hp => ?zero, ?inTaken, ?naked⟩
    case out =>
      rintro b bytes rfl
      obtain ⟨hfifo, hsies, hmisc, -⟩ := State.usbAccess_marked (.inl hflag) (s.usb.packetEffect_out k b bytes)
      obtain ⟨hout, hin⟩ := getLsbD_setOutIn s.usb.sies true false
      rw [hfifo, hsies]
      exact ⟨hmisc, hout, hin, rfl, rfl⟩
    case zero =>
      obtain ⟨hfifo, hsies, hmisc, -⟩ := State.usbAccess_marked (.inl hflag) (s.usb.packetEffect_zero k hp)
      rw [hfifo, hsies, hmisc]
      refine ⟨by cases k <;> rfl, fun hk => ?_, getLsbD_setBitTo_ne _ _ (by decide) (by decide),
        getLsbD_setBitTo_same _ 3#3 _, rfl⟩
      rw [hk]
      rfl
    case inTaken =>
      rintro rfl
      obtain ⟨hfifo, hsies, hmisc, -⟩ := State.usbAccess_marked (.inl hflag) (s.usb.packetEffect_inTaken k)
      rw [hfifo, hsies]
      exact ⟨hmisc, getLsbD_setBitTo_same _ 3#3 _, rfl⟩
    case naked =>
      rintro rfl
      obtain ⟨hfifo, hsies, hmisc, -⟩ := State.usbAccess_marked (.inl hflag) (s.usb.packetEffect_naked k)
      rw [hsies]
      exact ⟨hmisc, getLsbD_setBitTo_same _ 4#3 _, hfifo⟩
  case other =>
    exact State.usbAccess_keeps (f := fun u => u.fifo j) (Usb.packetEffect_fifo_other hj p) fun _ _ _ => by
      cases j <;> rfl

/-! The device address. -/

/-- Bits 7 to 1 of AWR are the address (62_ports_usb_ps2.md R548). -/
theorem toNat_address (v : Byte) : (v.extractLsb' 1 7).toNat = v.toNat / 2 := by
  have hv : v.toNat < 256 := v.isLt
  rw [toNat_field]
  omega

section
variable {u : Usb} (v : Byte)

theorem Usb.writeAwr_now (h : u.sies.getLsbD 0 = false) : (u.writeAwr v).devAddr = v.extractLsb' 1 7 :=
  if_neg (Bool.eq_false_iff.1 h)

theorem Usb.writeAwr_later (h : u.sies.getLsbD 0 = true) : (u.writeAwr v).devAddr = u.devAddr := if_pos h

end

/-- Settles O59: at once, or by the IN that clears Adr_set. -/
theorem deviceAddressUpdate : Obligations.DeviceAddressUpdate := by
  intro s v k
  refine ⟨fun hset => ?now, fun hset => Usb.writeAwr_later v hset, fun hset hflag => ?byIn⟩
  case now => exact (congrArg BitVec.toNat (Usb.writeAwr_now v hset)).trans (toNat_address v)
  case byIn =>
    obtain ⟨-, hsies, -, haddress⟩ := State.usbAccess_marked (.inl hflag) (s.usb.packetEffect_inTaken k)
    rw [haddress, hsies, if_pos hset, if_pos hset]
    exact ⟨toNat_address _,
      (getLsbD_setBitTo_ne _ _ (by decide) (by decide)).trans (getLsbD_setBitTo_same _ 0#3 _)⟩

/-! The moves of the bus. -/

/-- SCLKSEL matches the crystal (62_ports_usb_ps2.md R520). -/
theorem State.sclkMatches_iff (s : State) :
    s.sclkMatches = true ↔ (s.usb.scc.getLsbD 6 = true ↔ s.config.fSys = .mhz6) := by
  rw [State.sclkMatches, beq_iff_eq, Bool.eq_iff_iff, beq_iff_eq]

theorem State.usbHears_iff (s : State) :
    s.usbHears = true ↔
      (s.usb.usr.getLsbD 5 = true ∧ s.usb.usr.getLsbD 4 = false) ∧ s.usb.scc.getLsbD 3 = true ∧
        (s.usb.scc.getLsbD 6 = true ↔ s.config.fSys = .mhz6) ∧ s.halt.halted = false := by
  rw [State.usbHears, Bool.and_eq_true, Bool.and_eq_true, Bool.and_eq_true, Usb.usbSelected_iff,
    State.sclkMatches_iff, Bool.not_eq_true', and_assoc, and_assoc]

/-- A move that needs to be heard does its work or nothing. -/
theorem goesOn_if {c : Bool} {s t : State} :
    (c = true → MoveEffect.goesOn (if c then t else s) = .goesOn t) ∧
      (c = false → MoveEffect.goesOn (if c then t else s) = .goesOn s) :=
  ⟨fun h => by rw [if_pos h], fun h => by rw [if_neg (Bool.eq_false_iff.1 h)]⟩

/-- The read-only SIES bits follow the bus, the others stay (10_state.md R54). -/
theorem getLsbD_setSiesBus (v : Byte) (inToken nak eot : Bool) {i : Nat} (hi : i < 8) :
    (setBitTo (setBitTo (setBitTo v 3#3 inToken) 4#3 nak) 6#3 eot).getLsbD i =
      if i = 3 then inToken else if i = 4 then nak else if i = 6 then eot else v.getLsbD i := by
  rw [getLsbD_setBitTo _ _ _ hi, getLsbD_setBitTo _ _ _ hi, getLsbD_setBitTo _ _ _ hi]
  interval_cases i <;> rfl

/-- Settles O60: each move by what it needs to be heard. -/
theorem usbBusEvents : Obligations.UsbBusEvents := by
  intro s k p x y z selected heard requested
  have hselected : s.usb.usbSelected = true ↔ selected := s.usb.usbSelected_iff
  have hheard : s.usbHears = true ↔ heard := s.usbHears_iff
  refine ⟨fun hsel hrun => ?suspend, fun hsel => ?resumeStart, fun hsel => ?resumeEnd, fun hno => ?notSelected,
    fun hno => ?unheard, fun h => ?heard⟩
  case suspend =>
    have hhears : s.usbHearsSuspend = true := by
      rw [State.usbHearsSuspend, hselected.2 hsel, hrun]
      rfl
    exact goesOn_if.1 hhears
  case resumeStart => exact goesOn_if.1 (hselected.2 hsel)
  case resumeEnd => exact goesOn_if.1 (hselected.2 hsel)
  case notSelected =>
    have hdeaf : s.usb.usbSelected = false := Bool.eq_false_iff.2 (mt hselected.1 hno)
    have hsuspend : s.usbHearsSuspend = false := by rw [State.usbHearsSuspend, hdeaf, Bool.false_and]
    simp only [List.forall_mem_cons]
    exact ⟨goesOn_if.2 hsuspend, goesOn_if.2 hdeaf, goesOn_if.2 hdeaf, if_neg (Bool.eq_false_iff.1 hdeaf), nofun⟩
  case unheard =>
    have hdeaf : s.usbHears = false := Bool.eq_false_iff.2 (mt hheard.1 hno)
    simp only [List.forall_mem_cons]
    exact ⟨goesOn_if.2 hdeaf, goesOn_if.2 hdeaf, goesOn_if.2 hdeaf, goesOn_if.2 hdeaf, goesOn_if.2 hdeaf, nofun⟩
  case heard =>
    have hhears := hheard.2 h
    exact ⟨goesOn_if.1 hhears, goesOn_if.1 hhears, ⟨_, goesOn_if.1 hhears, fun i hi => getLsbD_setBitTo_true _ _ hi⟩,
      ⟨_, goesOn_if.1 hhears, fun i hi => getLsbD_setBitTo_true _ _ hi⟩,
      ⟨_, goesOn_if.1 hhears, fun i hi => getLsbD_setSiesBus _ _ _ _ hi⟩⟩

end Sys2Proof.Machine
end
